-- ==== Sys2Proof/Word.lean ====
section
/-! DEFINITION. The blocks of des_core (00_scope.md R10, R13): every block is a bit vector of its fixed width,
position 1 its most significant bit, so that position p of an n-bit block is `getMsbD (p - 1)` and bit `n - p`. -/

namespace Sys2Proof

/-- A 64-bit plaintext block, ciphertext block or master key (R10). -/
abbrev Block := BitVec 64

/-- A 32-bit half-block L or R, S-box output or f output (R10). -/
abbrev HalfBlock := BitVec 32

/-- A 28-bit key half C or D (R10). -/
abbrev KeyHalf := BitVec 28

/-- A 48-bit round key, expanded value or XOR result (R10). -/
abbrev RoundKey := BitVec 48

/-- The 3-bit command word `{dir, op[1:0]}` of port `cmd_i` (30_encoding.md R95). -/
abbrev CmdWord := BitVec 3

/-- The direction of a run: forward or reverse key order (00_scope.md R18, 30_encoding.md R101). -/
inductive Dir where
  | encrypt
  | decrypt
deriving DecidableEq, Repr, Inhabited

/-- One RoundState record, the snapshot of one round (10_state.md R30, 43_feistel_cipher.md R196). -/
structure RoundState where
  round    : BitVec 5
  k        : RoundKey
  lIn      : HalfBlock
  rIn      : HalfBlock
  expanded : RoundKey
  xored    : RoundKey
  sboxOut  : HalfBlock
  fOut     : HalfBlock
  lOut     : HalfBlock
  rOut     : HalfBlock
deriving DecidableEq, Repr, Inhabited

/-- The four values des_round_function returns (30_encoding.md R111, 42_round_function.md R177). -/
structure RoundOut where
  fOut     : HalfBlock
  expanded : RoundKey
  xored    : RoundKey
  sboxOut  : HalfBlock
deriving DecidableEq, Repr, Inhabited

/-- The two values feistel_cipher returns (30_encoding.md R112, 43_feistel_cipher.md R200). -/
structure RunResult where
  output : Block
  trace  : Vector RoundState 16
deriving DecidableEq, Repr, Inhabited

end Sys2Proof
end

