-- ==== Sys2Proof/Syntax.lean ====
section
/-! DEFINITION. The commands of des_core, one constructor per row of spec/opcode_table.json (30_encoding.md R100). -/

namespace Sys2Proof

/-- A command (R3: "instruction" means command). A row that ignores the `dir` bit carries it as its operand, so that
each of the eight command words is one term; no meaning reads that operand (log 9). -/
inductive Instr where
  /-- KEYGEN, `-00` (R102). -/
  | keygen (dir : BitVec 1)
  /-- RUN.ENC, `001` (R101). -/
  | runEnc
  /-- RUN.DEC, `101` (R101). -/
  | runDec
  /-- DECRYPT, `-10` (R103). -/
  | decrypt (dir : BitVec 1)
  /-- The reserved op code, `-11` (R104): RSV3 with dir = 0, RSV7 with dir = 1. -/
  | rsv (dir : BitVec 1)
deriving DecidableEq, Repr

end Sys2Proof
end

