-- ==== Sys2Proof/WellFormed.lean ====
section
/-! DEFINITION. Well-formedness: of a command, and of the constant tables, each of which carries its check
(20_memory.md R51, R54, R55). -/

namespace Sys2Proof

/-- Every term of `Instr` is a command of the opcode map (R100, R104): its one operand is exactly one bit, and both of
its values are legal encodings, so there is nothing more to check. -/
def Instr.wf : Instr → Bool
  | .keygen _ => true
  | .runEnc => true
  | .runDec => true
  | .decrypt _ => true
  | .rsv _ => true

/-- A permutation table of `m` entries over `n` input positions: the length, and every entry in 1..n (R51, R54). -/
def tableOk (n m : Nat) (entries : List Nat) : Bool :=
  entries.length == m && entries.all fun p => decide (1 ≤ p ∧ p ≤ n)

/-- The shift schedule: 16 entries, each 1 or 2 (R54, R66). -/
def shiftsOk (amounts : List Nat) : Bool :=
  amounts.length == 16 && amounts.all fun a => a == 1 || a == 2

/-- An S-box: 4 rows of 16 entries, each at most 15 (R54, R55). -/
def sboxOk (rows : List (List Nat)) : Bool :=
  rows.length == 4 && rows.all fun row => row.length == 16 && row.all fun v => decide (v ≤ 15)

/-- A permutation, selection or expansion table from `n` bits to `m` bits, with its check (R51, R54). -/
structure Table (n m : Nat) where
  entries : List Nat
  ok      : tableOk n m entries = true
deriving DecidableEq, Repr

/-- One S-box with its check (R55). -/
structure SBox where
  rows : List (List Nat)
  ok   : sboxOk rows = true
deriving DecidableEq, Repr

theorem Table.length_entries {n m : Nat} (T : Table n m) : T.entries.length = m := by
  have h := T.ok
  simp only [tableOk, Bool.and_eq_true, beq_iff_eq] at h
  exact h.1

theorem Table.mem_range {n m : Nat} (T : Table n m) {p : Nat} (hp : p ∈ T.entries) : 1 ≤ p ∧ p ≤ n := by
  have h := T.ok
  simp only [tableOk, Bool.and_eq_true, List.all_eq_true, decide_eq_true_eq] at h
  exact h.2 p hp

end Sys2Proof
end

