-- ==== Sys2Proof/Decode.lean ====
section
/-! DEFINITION. Decoding and encoding of the 3-bit command word (30_encoding.md R95, R100 to R104, R113). Decoding is
total: each of the eight words selects exactly one row, and no word is refused (R100, 44_des_core.md R225). -/

namespace Sys2Proof

/-- The `dir` field, bit [2] of the command word (R95). -/
def dirField (w : CmdWord) : BitVec 1 := w.extractLsb' 2 1

/-- The command a command word selects (R100, R225): the op field is bits [1:0], all four of its values are listed, and
`dir` selects between the two RUN rows. -/
def decode (w : CmdWord) : Instr :=
  match w.getLsbD 1, w.getLsbD 0 with
  | false, false => .keygen (dirField w)
  | false, true =>
    match w.getLsbD 2 with
    | false => .runEnc
    | true => .runDec
  | true, false => .decrypt (dirField w)
  | true, true => .rsv (dirField w)

/-- The command word of a command, from the same map (R100): `dir` above the op code. -/
def encode : Instr → CmdWord
  | .keygen dir => dir ++ 0b00#2
  | .runEnc => 0b001#3
  | .runDec => 0b101#3
  | .decrypt dir => dir ++ 0b10#2
  | .rsv dir => dir ++ 0b11#2

/-- The command the decoder reads from the table's word `w`: bits 2..0 are `cmd_i[2:0]`. The port has no further bit
(R90, R113), so bits of `w` above bit 2, and how many bits the table gives the row, make no difference (log 10). -/
def decodeTableWord (nbits w : Nat) : Option Instr :=
  let _ := nbits
  some (decode (BitVec.ofNat 3 w))

end Sys2Proof
end

