-- ==== Sys2Proof/Machine/State.lean ====
section
/-! DEFINITION. The state of des_core (10_state.md R20 to R38, R42) as plain data, the reasons a step can stop, and the
state after reset. -/

namespace Sys2Proof.Machine

/-- Why the machine has no defined next state (10_state.md R38, 60_exceptions.md R265, R266). -/
inductive Fault where
  /-- R264: a start while BUSY = 1. `hostStart` records it in FAULT; any later step of that state but a Reset stops with
  it, raised by `coreTurn` and `hostStart`. Safe: the model stops where the spec defines no behaviour. -/
  | startWhileBusy
deriving DecidableEq, Repr

/-- Why an instruction has no meaning in the model. -/
inductive Refusal where
  /-- Raised by an arm of `exec` whose instruction has not been given its meaning: no arm raises it. Safe. -/
  | notModelled (mnemonic : String)
deriving DecidableEq, Repr

/-- What the HOST does at one step (44_des_core.md R221; log 2). -/
inductive HostMove where
  /-- The host does nothing: it is the CORE's turn. -/
  | idle
  /-- `HostStart(key, block, cmd)`: `start_i` with the values on the ports (R222, R223). -/
  | start (key block : Block) (cmd : CmdWord)
  /-- `Reset`: a clock edge with `rst_i` = 1 (70_reset_and_hazards.md R290). -/
  | reset
deriving DecidableEq, Repr

/-- The architectural state (R20), the model-only mark FAULT (R38), and the model's own `inputs` and `draws`. One
State is one instance (20_memory.md R86; log 16). -/
structure State where
  /-- KEY_R (R25). -/
  keyR       : Block
  /-- BLK_R (R26). -/
  blkR       : Block
  /-- CMD_R (R27). -/
  cmdR       : CmdWord
  /-- RK[1..16] (R28): entry r at index r - 1. -/
  rk         : Vector RoundKey 16
  /-- OUT_R (R29). -/
  outR       : Block
  /-- TRACE[1..16] (R30): record r at index r - 1. -/
  trace      : Vector RoundState 16
  /-- BUSY (R31). -/
  busy       : Bool
  /-- DONE (R32). -/
  done       : Bool
  /-- ERR (R33). -/
  err        : BitVec 2
  /-- RK_VALID (R34). -/
  rkValid    : Bool
  /-- OUT_VALID (R35). -/
  outValid   : Bool
  /-- TRACE_VALID (R36). -/
  traceValid : Bool
  /-- FAULT (R38). -/
  fault      : Option Fault
  /-- The HOST's coming moves, next one first; empty once the host does nothing more (log 2). -/
  inputs     : List HostMove
  /-- How many times free values have been drawn for a protocol violation (log 4). -/
  draws      : Nat
deriving DecidableEq, Repr, Inhabited

/-- The machine right after reset (R42, R293): the status fields are 0 and FAULT is none; the registers that R42 leaves
unspecified are 0 (log 1), no host move is pending (log 2), nothing has been drawn (log 4). -/
def State.reset : State where
  keyR := 0
  blkR := 0
  cmdR := 0
  rk := Vector.replicate 16 0
  outR := 0
  trace := Vector.replicate 16 default
  busy := false
  done := false
  err := 0
  rkValid := false
  outValid := false
  traceValid := false
  fault := none
  inputs := []
  draws := 0

end Sys2Proof.Machine
end

