-- ==== Sys2Proof/Config.lean ====
section
/-! DEFINITION. What an implementation fixes (00_scope.md R12) and the free values: constants with no body for every
value the spec leaves unspecified (10_state.md R44, 44_des_core.md R223, 60_exceptions.md R264). -/

namespace Sys2Proof

/-- `IMPL_STYLE` (R12): no rule distinguishes the two. -/
inductive ImplStyle where
  | combinational
  | iterative
deriving DecidableEq, Repr

/-- A latency: clock edges from the accepting edge to the completing edge. Whether it depends on the key or the block
is left open (92_eei_decisions.md D32), so it may depend on the captured key, the captured block and the round keys. -/
abbrev Latency := Block → Block → Vector RoundKey 16 → Nat

/-- The named timing parameters of R12, which the clocked view takes as an argument (R306, D14). -/
structure Timing where
  latKeygen   : Latency
  latRun      : Latency
  latDecrypt  : Latency
  latReserved : Latency
  implStyle   : ImplStyle

/-- Every latency is at least 1 (R12, R306 item 4). -/
abbrev Timing.wf (P : Timing) : Prop :=
  ∀ key block rk, 1 ≤ P.latKeygen key block rk ∧ 1 ≤ P.latRun key block rk ∧
    1 ≤ P.latDecrypt key block rk ∧ 1 ≤ P.latReserved key block rk

/-- Free value: what `status_o` shows at read number `n` in state `s` once FAULT is set (R229). -/
opaque Config.readStatus (n : Nat) (s : Machine.State) : BitVec 8

/-- Free value: what `block_o` shows at read number `n` in state `s` where it is unspecified (R44, R229). -/
opaque Config.readBlock (n : Nat) (s : Machine.State) : Block

/-- Free value: what `rk_o` shows at read number `n` with `rk_sel_i = sel` in state `s` where it is unspecified (R44, R93,
R229). -/
opaque Config.readRoundKey (n : Nat) (sel : BitVec 4) (s : Machine.State) : RoundKey

/-- Free value: what `trace_o` shows at read number `n` with `trace_sel_i = sel` in state `s` where it is unspecified (R44,
R94, R229). -/
opaque Config.readTrace (n : Nat) (sel : BitVec 4) (s : Machine.State) : BitVec 341

/-- Free value: the architectural registers after the host's move `m` in state `s` was a protocol violation (R223, R264).
Only those fields of it are used. -/
opaque Config.wrecked (m : Machine.HostMove) (s : Machine.State) : Machine.State

end Sys2Proof
end

