-- ==== Sys2Proof/Machine/Flags.lean ====
section
/-! DEFINITION. The status fields (10_state.md R31 to R37): the error codes, the status word and the one place that
writes the flags of a completion. des_core has no arithmetic flags (R24). -/

namespace Sys2Proof.Machine

/-- ERR = NONE (R33). -/
def errNone : BitVec 2 := 0b00

/-- ERR = ILLEGAL_OP (R33, R262). -/
def errIllegalOp : BitVec 2 := 0b01

/-- ERR = NO_KEYS (R33, R263). -/
def errNoKeys : BitVec 2 := 0b10

/-- The status word, bits 7 to 0 (30_encoding.md R96, 44_des_core.md R229); bit 7 is hard-wired to 0 (R37). -/
def statusWord (s : State) : BitVec 8 :=
  0#1 ++ BitVec.ofBool s.traceValid ++ BitVec.ofBool s.outValid ++ BitVec.ofBool s.rkValid ++ s.err ++
    BitVec.ofBool s.done ++ BitVec.ofBool s.busy

/-- The end of every command (R224): ERR <- code, BUSY <- 0, DONE <- 1. -/
def State.complete (s : State) (code : BitVec 2) : State :=
  { s with err := code, busy := false, done := true }

end Sys2Proof.Machine
end

