-- ==== Sys2Proof/Machine/Tables.lean ====
section
/-! DEFINITION. The constant tables of des_core (20_memory.md R51, R55, R60 to R74), entry for entry as the spec lists
them: six permutation tables (90_conflicts.md C1), the shift schedule and eight S-boxes. Constants, not state (10_state.md
R40; log 11). -/

namespace Sys2Proof.Machine

/-- IP, the initial permutation (R60). -/
def ROM.IP : Table 64 64 where
  entries := [
    58, 50, 42, 34, 26, 18, 10, 2,
    60, 52, 44, 36, 28, 20, 12, 4,
    62, 54, 46, 38, 30, 22, 14, 6,
    64, 56, 48, 40, 32, 24, 16, 8,
    57, 49, 41, 33, 25, 17, 9, 1,
    59, 51, 43, 35, 27, 19, 11, 3,
    61, 53, 45, 37, 29, 21, 13, 5,
    63, 55, 47, 39, 31, 23, 15, 7]
  ok := by decide

/-- FP, the final permutation (R61). -/
def ROM.FP : Table 64 64 where
  entries := [
    40, 8, 48, 16, 56, 24, 64, 32,
    39, 7, 47, 15, 55, 23, 63, 31,
    38, 6, 46, 14, 54, 22, 62, 30,
    37, 5, 45, 13, 53, 21, 61, 29,
    36, 4, 44, 12, 52, 20, 60, 28,
    35, 3, 43, 11, 51, 19, 59, 27,
    34, 2, 42, 10, 50, 18, 58, 26,
    33, 1, 41, 9, 49, 17, 57, 25]
  ok := by decide

/-- PC1, permuted choice 1 (R62). -/
def ROM.PC1 : Table 64 56 where
  entries := [
    57, 49, 41, 33, 25, 17, 9,
    1, 58, 50, 42, 34, 26, 18,
    10, 2, 59, 51, 43, 35, 27,
    19, 11, 3, 60, 52, 44, 36,
    63, 55, 47, 39, 31, 23, 15,
    7, 62, 54, 46, 38, 30, 22,
    14, 6, 61, 53, 45, 37, 29,
    21, 13, 5, 28, 20, 12, 4]
  ok := by decide

/-- PC2, permuted choice 2 (R63). -/
def ROM.PC2 : Table 56 48 where
  entries := [
    14, 17, 11, 24, 1, 5,
    3, 28, 15, 6, 21, 10,
    23, 19, 12, 4, 26, 8,
    16, 7, 27, 20, 13, 2,
    41, 52, 31, 37, 47, 55,
    30, 40, 51, 45, 33, 48,
    44, 49, 39, 56, 34, 53,
    46, 42, 50, 36, 29, 32]
  ok := by decide

/-- E, the expansion (R64). -/
def ROM.E : Table 32 48 where
  entries := [
    32, 1, 2, 3, 4, 5,
    4, 5, 6, 7, 8, 9,
    8, 9, 10, 11, 12, 13,
    12, 13, 14, 15, 16, 17,
    16, 17, 18, 19, 20, 21,
    20, 21, 22, 23, 24, 25,
    24, 25, 26, 27, 28, 29,
    28, 29, 30, 31, 32, 1]
  ok := by decide

/-- P, the permutation of the S-box output (R65). -/
def ROM.P : Table 32 32 where
  entries := [
    16, 7, 20, 21, 29, 12, 28, 17,
    1, 15, 23, 26, 5, 18, 31, 10,
    2, 8, 24, 14, 32, 27, 3, 9,
    19, 13, 30, 6, 22, 11, 4, 25]
  ok := by decide

/-- SHIFT_SCHEDULE (R66): rounds 1, 2, 9 and 16 shift by 1, all others by 2. -/
def ROM.SHIFT : List Nat := [1, 1, 2, 2, 2, 2, 2, 2, 1, 2, 2, 2, 2, 2, 2, 1]

/-- `ROM.SHIFT[r]`, r = 1..16 (R51; log 17). -/
def ROM.shift (r : Nat) : Nat := ROM.SHIFT.getD (r - 1) 0

/-- S1 (R67). -/
def ROM.S1 : SBox where
  rows := [
    [14, 4, 13, 1, 2, 15, 11, 8, 3, 10, 6, 12, 5, 9, 0, 7],
    [0, 15, 7, 4, 14, 2, 13, 1, 10, 6, 12, 11, 9, 5, 3, 8],
    [4, 1, 14, 8, 13, 6, 2, 11, 15, 12, 9, 7, 3, 10, 5, 0],
    [15, 12, 8, 2, 4, 9, 1, 7, 5, 11, 3, 14, 10, 0, 6, 13]]
  ok := by decide

/-- S2 (R68). -/
def ROM.S2 : SBox where
  rows := [
    [15, 1, 8, 14, 6, 11, 3, 4, 9, 7, 2, 13, 12, 0, 5, 10],
    [3, 13, 4, 7, 15, 2, 8, 14, 12, 0, 1, 10, 6, 9, 11, 5],
    [0, 14, 7, 11, 10, 4, 13, 1, 5, 8, 12, 6, 9, 3, 2, 15],
    [13, 8, 10, 1, 3, 15, 4, 2, 11, 6, 7, 12, 0, 5, 14, 9]]
  ok := by decide

/-- S3 (R69). -/
def ROM.S3 : SBox where
  rows := [
    [10, 0, 9, 14, 6, 3, 15, 5, 1, 13, 12, 7, 11, 4, 2, 8],
    [13, 7, 0, 9, 3, 4, 6, 10, 2, 8, 5, 14, 12, 11, 15, 1],
    [13, 6, 4, 9, 8, 15, 3, 0, 11, 1, 2, 12, 5, 10, 14, 7],
    [1, 10, 13, 0, 6, 9, 8, 7, 4, 15, 14, 3, 11, 5, 2, 12]]
  ok := by decide

/-- S4 (R70). -/
def ROM.S4 : SBox where
  rows := [
    [7, 13, 14, 3, 0, 6, 9, 10, 1, 2, 8, 5, 11, 12, 4, 15],
    [13, 8, 11, 5, 6, 15, 0, 3, 4, 7, 2, 12, 1, 10, 14, 9],
    [10, 6, 9, 0, 12, 11, 7, 13, 15, 1, 3, 14, 5, 2, 8, 4],
    [3, 15, 0, 6, 10, 1, 13, 8, 9, 4, 5, 11, 12, 7, 2, 14]]
  ok := by decide

/-- S5 (R71). -/
def ROM.S5 : SBox where
  rows := [
    [2, 12, 4, 1, 7, 10, 11, 6, 8, 5, 3, 15, 13, 0, 14, 9],
    [14, 11, 2, 12, 4, 7, 13, 1, 5, 0, 15, 10, 3, 9, 8, 6],
    [4, 2, 1, 11, 10, 13, 7, 8, 15, 9, 12, 5, 6, 3, 0, 14],
    [11, 8, 12, 7, 1, 14, 2, 13, 6, 15, 0, 9, 10, 4, 5, 3]]
  ok := by decide

/-- S6 (R72). -/
def ROM.S6 : SBox where
  rows := [
    [12, 1, 10, 15, 9, 2, 6, 8, 0, 13, 3, 4, 14, 7, 5, 11],
    [10, 15, 4, 2, 7, 12, 9, 5, 6, 1, 13, 14, 0, 11, 3, 8],
    [9, 14, 15, 5, 2, 8, 12, 3, 7, 0, 4, 10, 1, 13, 11, 6],
    [4, 3, 2, 12, 9, 5, 15, 10, 11, 14, 1, 7, 6, 0, 8, 13]]
  ok := by decide

/-- S7 (R73). -/
def ROM.S7 : SBox where
  rows := [
    [4, 11, 2, 14, 15, 0, 8, 13, 3, 12, 9, 7, 5, 10, 6, 1],
    [13, 0, 11, 7, 4, 9, 1, 10, 14, 3, 5, 12, 2, 15, 8, 6],
    [1, 4, 11, 13, 12, 3, 7, 14, 10, 15, 6, 8, 0, 5, 9, 2],
    [6, 11, 13, 8, 1, 4, 10, 7, 9, 5, 0, 15, 14, 2, 3, 12]]
  ok := by decide

/-- S8 (R74). -/
def ROM.S8 : SBox where
  rows := [
    [13, 2, 8, 4, 6, 15, 11, 1, 10, 9, 3, 14, 5, 0, 12, 7],
    [1, 15, 13, 8, 10, 3, 7, 4, 12, 5, 6, 11, 0, 14, 9, 2],
    [7, 11, 4, 1, 9, 12, 14, 2, 0, 6, 10, 13, 15, 3, 5, 8],
    [2, 1, 14, 7, 4, 10, 8, 13, 15, 12, 9, 0, 3, 5, 6, 11]]
  ok := by decide

/-- The eight S-boxes in order (R55). -/
def ROM.sboxes : List SBox := [ROM.S1, ROM.S2, ROM.S3, ROM.S4, ROM.S5, ROM.S6, ROM.S7, ROM.S8]

/-- `ROM.S[i][row][col]` for 1 ≤ i ≤ 8, row 0..3, col 0..15 (R55; log 17). -/
def ROM.S (i row col : Nat) : Nat :=
  (((ROM.sboxes.map (·.rows)).getD (i - 1) []).getD row []).getD col 0

/-! ## The properties of the constants (R75) -/

/-- How often position `p` is named by a list of entries. -/
def occurrences (entries : List Nat) (p : Nat) : Nat := entries.count p

/-- The positions 1..n, in order, that a list of entries names exactly `c` times. -/
def namedTimes (n c : Nat) (entries : List Nat) : List Nat :=
  ((List.range n).map (· + 1)).filter fun p => occurrences entries p == c

/-- Item 1: every entry is in its range (R54). -/
abbrev ROM.inRange : Prop :=
  tableOk 64 64 ROM.IP.entries = true ∧ tableOk 64 64 ROM.FP.entries = true ∧ tableOk 64 56 ROM.PC1.entries = true ∧
  tableOk 56 48 ROM.PC2.entries = true ∧ tableOk 32 48 ROM.E.entries = true ∧ tableOk 32 32 ROM.P.entries = true ∧
  shiftsOk ROM.SHIFT = true ∧ ∀ b ∈ ROM.sboxes, sboxOk b.rows = true

/-- Item 2: `FP[IP[j]] = j` and `IP[FP[j]] = j` for j in 1..64, so that both are bijections. -/
abbrev ROM.ipFpInverse : Prop :=
  ∀ j < 64, ROM.FP.entries.getD (ROM.IP.entries.getD j 0 - 1) 0 = j + 1 ∧
    ROM.IP.entries.getD (ROM.FP.entries.getD j 0 - 1) 0 = j + 1

/-- Item 3: PC1 has 56 distinct entries and omits exactly the parity positions. -/
abbrev ROM.pc1Selects : Prop :=
  ROM.PC1.entries.length = 56 ∧ ROM.PC1.entries.Nodup ∧
  namedTimes 64 0 ROM.PC1.entries = [8, 16, 24, 32, 40, 48, 56, 64]

/-- Item 4: PC2 has 48 distinct entries, and the positions it omits. -/
abbrev ROM.pc2Selects : Prop :=
  ROM.PC2.entries.length = 48 ∧ ROM.PC2.entries.Nodup ∧
  namedTimes 56 0 ROM.PC2.entries = [9, 18, 22, 25, 35, 38, 43, 54]

/-- Item 5: E has 48 entries, names every position once or twice, and the positions it doubles (R64). -/
abbrev ROM.eRepeats : Prop :=
  ROM.E.entries.length = 48 ∧
  (∀ p < 32, occurrences ROM.E.entries (p + 1) = 1 ∨ occurrences ROM.E.entries (p + 1) = 2) ∧
  namedTimes 32 2 ROM.E.entries = [1, 4, 5, 8, 9, 12, 13, 16, 17, 20, 21, 24, 25, 28, 29, 32]

/-- Item 6: P is a bijection of 1..32. -/
abbrev ROM.pBijective : Prop := ∀ p < 32, occurrences ROM.P.entries (p + 1) = 1

/-- Item 7: the shift amounts are 1 or 2 and sum to 28. -/
abbrev ROM.shiftsSum : Prop := shiftsOk ROM.SHIFT = true ∧ ROM.SHIFT.sum = 28

/-- Item 8: every row of every S-box is a permutation of 0..15. -/
abbrev ROM.sboxRowsBijective : Prop := ∀ b ∈ ROM.sboxes, ∀ r ∈ b.rows, ∀ v < 16, occurrences r v = 1

/-- Item 9: the one S-box cell the source states (R55, 42_round_function.md R180). -/
abbrev ROM.s1Cell : Prop := ROM.S 1 3 0 = 15

/-- The nine properties of the constants (R75). -/
abbrev ROM.properties : Prop :=
  ROM.inRange ∧ ROM.ipFpInverse ∧ ROM.pc1Selects ∧ ROM.pc2Selects ∧ ROM.eRepeats ∧ ROM.pBijective ∧ ROM.shiftsSum ∧
  ROM.sboxRowsBijective ∧ ROM.s1Cell

end Sys2Proof.Machine
end

