-- ==== Sys2Proof/Machine/Ops.lean ====
section
/-! DEFINITION. The named operations: the bit-vector primitives (40_bit_primitives.md R130 to R136), the register-file
accesses (20_memory.md R52, R53), the capture of an accepted start, reset, and the two ways an error is reported
(60_exceptions.md R266, R268). -/

namespace Sys2Proof.Machine

/-- `v<p>`, the bit at table position p, 1 ≤ p ≤ n (00_scope.md R13). -/
def bitAt {n : Nat} (v : BitVec n) (p : Nat) : Bool := v.getMsbD (p - 1)

/-- `permute(v, T)` (R130): output position j copies input position `T[j]`. -/
def permute {n m : Nat} (v : BitVec n) (T : Table n m) : BitVec m :=
  (BitVec.ofBoolListBE (T.entries.map (bitAt v))).cast (by simp [T.length_entries])

/-- `T1∘T2`, whose entry j is `T1[T2[j]]` (R137 item 1). -/
def composeTables {n m k : Nat} (T1 : Table n m) (T2 : Table m k) : Table n k where
  entries := T2.entries.map fun p => T1.entries.getD (p - 1) 0
  ok := by
    simp only [tableOk, Bool.and_eq_true, beq_iff_eq, List.length_map, T2.length_entries, List.all_map,
      List.all_eq_true, Function.comp_apply, decide_eq_true_eq, true_and]
    intro p hp
    have h := T2.mem_range hp
    have hlt : p - 1 < T1.entries.length := by rw [T1.length_entries]; omega
    rw [List.getD_eq_getElem _ _ hlt]
    exact T1.mem_range (List.getElem_mem hlt)

/-- `rotl(v, s)`, cyclic left rotation, 0 ≤ s < n (R131). -/
def rotl {n : Nat} (v : BitVec n) (s : Nat) : BitVec n := v.rotateLeft s

/-- `split(v)`, the upper and the lower half (R134). -/
def split {n : Nat} (v : BitVec (n + n)) : BitVec n × BitVec n := (v.extractLsb' n n, v.extractLsb' 0 n)

/-- `bitsToBytes(v)` (R136), host-side glue that des_core never applies: byte 0 is positions 1 to 8. A width that is
no multiple of 8 cannot be written. -/
def bitsToBytes {n : Nat} (v : BitVec (8 * n)) : List (BitVec 8) :=
  (List.range n).map fun k => v.extractLsb' (8 * (n - 1 - k)) 8

/-- `RK[r]`, 1 ≤ r ≤ 16 (R52; log 17). -/
def keyAt (rk : Vector RoundKey 16) (r : Nat) : RoundKey := rk.getD (r - 1) 0

/-- `TRACE[r]`, 1 ≤ r ≤ 16 (R53; log 17). -/
def recordAt (trace : Vector RoundState 16) (r : Nat) : RoundState := trace.getD (r - 1) default

/-- The write of the round-key file, all 16 entries together, with its valid flag (R52, R158, R34). -/
def State.writeKeys (s : State) (rk : Vector RoundKey 16) : State := { s with rk := rk, rkValid := true }

/-- The write of OUT_R and all 16 trace records together, with their valid flags (R203, R228). -/
def State.writeResult (s : State) (r : RunResult) : State :=
  { s with outR := r.output, trace := r.trace, outValid := true, traceValid := true }

/-- The capture of an accepted start (R222). -/
def State.capture (s : State) (key block : Block) (cmd : CmdWord) : State :=
  { s with keyR := key, blkR := block, cmdR := cmd, busy := true, done := false, err := errNone }

/-- A Reset step (70_reset_and_hazards.md R290 to R292): the status fields become 0. FAULT stays. The registers R290
leaves unspecified keep their contents, which R290 allows (log 6). -/
def State.resetStep (s : State) : State :=
  { s with busy := false, done := false, err := 0, rkValid := false, outValid := false, traceValid := false }

/-- Reporting an error (R268): des_core has no trap, vector or saved state, so an erroring command only writes ERR, with
the BUSY and DONE update of its completion, and no data register. Nothing returns from an error (R269): the next
accepted start clears ERR. -/
def State.reportError (s : State) (code : BitVec 2) : State := s.complete code

/-- `fault F` at the host's move `m` (R266): FAULT is set. What the hardware holds from then on is unspecified (R223, R264),
so every architectural register takes a free value (log 4); the host's coming moves are not the core's to change. -/
def State.raiseFault (s : State) (f : Fault) (m : HostMove) : State :=
  { Config.wrecked m s with fault := some f, inputs := s.inputs, draws := s.draws + 1 }

/-- The command word the CORE performs at its next completion (R224). -/
def fetch (s : State) : CmdWord := s.cmdR

end Sys2Proof.Machine
end

