-- ==== Sys2Proof/Machine/Operands.lean ====
section
/-! DEFINITION. Operand assembly: the key halves and half-blocks (30_encoding.md R105, R106), the pre-output (R109), the
S-box groups (R107, R108) and the choice of a round's key (43_feistel_cipher.md R191). -/

namespace Sys2Proof.Machine

/-- `(C_0, D_0)` of the PC1 output (R105, 41_key_schedule.md R151). -/
def keyHalves (cd : BitVec 56) : KeyHalf × KeyHalf := split (n := 28) cd

/-- `(L_0, R_0)` of the IP output (R106, R190). -/
def halfBlocks (permuted : Block) : HalfBlock × HalfBlock := split (n := 32) permuted

/-- `R_16 ‖ L_16` (R109, R197): right half first. -/
def preOutput (lr : HalfBlock × HalfBlock) : Block := lr.2 ++ lr.1

/-- Group i of the XOR result, 1 ≤ i ≤ 8: `xored[53-6i : 48-6i]` (R107, R172). -/
def group (xored : RoundKey) (i : Nat) : BitVec 6 := xored.extractLsb' (48 - 6 * i) 6

/-- The row of a group: its two outer bits (R107, R173). -/
def row (g : BitVec 6) : Nat := 2 * (g.getLsbD 5).toNat + (g.getLsbD 0).toNat

/-- The column of a group: its four middle bits (R107, R173). -/
def col (g : BitVec 6) : Nat := (g.extractLsb' 1 4).toNat

/-- `key_for(r, dir)`, 1 ≤ r ≤ 16 (R191). -/
def keyFor (rk : Vector RoundKey 16) (dir : Dir) (r : Nat) : RoundKey :=
  match dir with
  | .decrypt => keyAt rk (17 - r)
  | .encrypt => keyAt rk r

end Sys2Proof.Machine
end

