-- ==== Sys2Proof/Machine/RoundFunction.lean ====
section
/-! DEFINITION. des_round_function (42_round_function.md R170 to R178). -/

namespace Sys2Proof.Machine

/-- `bits_4(v_i)`: the 4 bits S-box i gives for its group (R173, R174). -/
def lane (i : Nat) (g : BitVec 6) : BitVec 4 := BitVec.ofNat 4 (ROM.S i (row g) (col g))

/-- `sbox_out` (R175): eight independent lanes (R178), S1 first. -/
def substitute (xored : RoundKey) : HalfBlock :=
  lane 1 (group xored 1) ++ lane 2 (group xored 2) ++ lane 3 (group xored 3) ++ lane 4 (group xored 4) ++
    lane 5 (group xored 5) ++ lane 6 (group xored 6) ++ lane 7 (group xored 7) ++ lane 8 (group xored 8)

/-- `apply(R, K)` (R177): all four values. -/
def apply (r : HalfBlock) (k : RoundKey) : RoundOut where
  expanded := permute r ROM.E
  xored := permute r ROM.E ^^^ k
  sboxOut := substitute (permute r ROM.E ^^^ k)
  fOut := permute (substitute (permute r ROM.E ^^^ k)) ROM.P

end Sys2Proof.Machine
end

