-- ==== Sys2Proof/Machine/Feistel.lean ====
section
/-! DEFINITION. feistel_cipher and the RUN commands (43_feistel_cipher.md R190 to R203). -/

namespace Sys2Proof.Machine

/-- The Feistel update (R194, R295): both halves from the old pair. -/
def feistelUpdate (lr : HalfBlock × HalfBlock) (k : RoundKey) : HalfBlock × HalfBlock :=
  (lr.2, lr.1 ^^^ (apply lr.2 k).fOut)

/-- `(L_r, R_r)`, r = 0..16 (R190, R193 to R195). -/
def halves (block : Block) (rk : Vector RoundKey 16) (dir : Dir) : Nat → HalfBlock × HalfBlock
  | 0 => halfBlocks (permute block ROM.IP)
  | r + 1 => feistelUpdate (halves block rk dir r) (keyFor rk dir (r + 1))

/-- The record of round r from the halves before it and its key (R196). -/
def snapshot (r : Nat) (lr : HalfBlock × HalfBlock) (k : RoundKey) : RoundState where
  round := BitVec.ofNat 5 r
  k := k
  lIn := lr.1
  rIn := lr.2
  expanded := (apply lr.2 k).expanded
  xored := (apply lr.2 k).xored
  sboxOut := (apply lr.2 k).sboxOut
  fOut := (apply lr.2 k).fOut
  lOut := (feistelUpdate lr k).1
  rOut := (feistelUpdate lr k).2

/-- `run(block, RK, dir)` (R200): the output after the final swap and FP (R197, R198), and the trace (R201). -/
def run (block : Block) (rk : Vector RoundKey 16) (dir : Dir) : RunResult where
  output := permute (preOutput (halves block rk dir 16)) ROM.FP
  trace := Vector.ofFn fun i => snapshot (i.val + 1) (halves block rk dir i.val) (keyFor rk dir (i.val + 1))

/-- RUN in one direction (R203): NO_KEYS without a key schedule (R226, R263), else the run with the RK file. -/
def runCommand (dir : Dir) (s : State) : Host.Outcome State Fault Refusal :=
  if s.rkValid then
    .next ((s.writeResult (run s.blkR s.rk dir)).complete errNone)
  else
    .next (s.reportError errNoKeys)

/-- RUN.ENC (R101, R203). -/
def execRunEnc (s : State) : Host.Outcome State Fault Refusal := runCommand .encrypt s

/-- RUN.DEC (R101, R203). -/
def execRunDec (s : State) : Host.Outcome State Fault Refusal := runCommand .decrypt s

end Sys2Proof.Machine
end

