-- ==== Sys2Proof/Machine/KeySchedule.lean ====
section
/-! DEFINITION. des_key_schedule and the KEYGEN command (41_key_schedule.md R150 to R158). -/

namespace Sys2Proof.Machine

/-- `(C_r, D_r)`, r = 0..16 (R150 to R153): PC1 and the split, then one rotation of each half a round. -/
def scheduleHalves (key : Block) : Nat → KeyHalf × KeyHalf
  | 0 => keyHalves (permute key ROM.PC1)
  | r + 1 =>
    (rotl (scheduleHalves key r).1 (ROM.shift (r + 1)), rotl (scheduleHalves key r).2 (ROM.shift (r + 1)))

/-- `K_r = permute(C_r ‖ D_r, PC2)`, r = 1..16 (R154). -/
def roundKey (key : Block) (r : Nat) : RoundKey :=
  permute (n := 56) ((scheduleHalves key r).1 ++ (scheduleHalves key r).2) ROM.PC2

/-- `generate(key)`, the sixteen round keys in order (R155, R157). -/
def generate (key : Block) : Vector RoundKey 16 := Vector.ofFn fun i => roundKey key (i.val + 1)

/-- KEYGEN (R158): RK and RK_VALID; OUT_R, TRACE and their flags stay (decision D19). `dir` is ignored (R102). -/
def execKeygen (_dir : BitVec 1) (s : State) : Host.Outcome State Fault Refusal :=
  .next ((s.writeKeys (generate s.keyR)).complete errNone)

end Sys2Proof.Machine
end

