-- ==== Sys2Proof/Machine/DesCore.lean ====
section
/-! DEFINITION. The top-level function and the DECRYPT command (44_des_core.md R220, R227). -/

namespace Sys2Proof.Machine

/-- `des_decrypt(key, ciphertext)` (R220). -/
def desDecrypt (key ciphertext : Block) : Block := (run ciphertext (generate key) .decrypt).output

/-- DECRYPT (R227): the key schedule, then a decrypting run with it. `dir` is ignored (R103). -/
def execDecrypt (_dir : BitVec 1) (s : State) : Host.Outcome State Fault Refusal :=
  .next (((s.writeKeys (generate s.keyR)).writeResult (run s.blkR (generate s.keyR) .decrypt)).complete errNone)

end Sys2Proof.Machine
end

