-- ==== Sys2Proof/Machine/Reserved.lean ====
section
/-! DEFINITION. The reserved op code (30_encoding.md R104, 60_exceptions.md R262). -/

namespace Sys2Proof.Machine

/-- RSV3 and RSV7 (R262): the command completes with ILLEGAL_OP and writes no data, for either value of `dir`. -/
def execRsv (_dir : BitVec 1) (s : State) : Host.Outcome State Fault Refusal :=
  .next (s.reportError errIllegalOp)

end Sys2Proof.Machine
end

