-- ==== Sys2Proof/Machine/Dispatch.lean ====
section
/-! DEFINITION. The completion of a command, by command (44_des_core.md R224, R225): one arm per constructor. -/

namespace Sys2Proof.Machine

def exec (i : Instr) (s : State) : Host.Outcome State Fault Refusal :=
  match i with
  | .keygen dir => Sys2Proof.Machine.execKeygen dir s
  | .runEnc => Sys2Proof.Machine.execRunEnc s
  | .runDec => Sys2Proof.Machine.execRunDec s
  | .decrypt dir => Sys2Proof.Machine.execDecrypt dir s
  | .rsv dir => Sys2Proof.Machine.execRsv dir s

end Sys2Proof.Machine
end

