-- ==== Sys2Proof/Machine/Turns.lean ====
section
/-! DEFINITION. The three kinds of model step (44_des_core.md R221): the CORE's turn with `CoreComplete`, `HostStart`,
and `Reset`. -/

namespace Sys2Proof.Machine

/-- The CORE's turn. With FAULT set there is no further completion and no defined next state (R16, R266; log 5). While
BUSY it performs the captured command in one atomic step (R224). When idle it holds its state (60_exceptions.md R277). -/
def coreTurn (s : State) : Host.Outcome State Fault Refusal :=
  match s.fault with
  | some f => .fault f
  | none => if s.busy then exec (decode (fetch s)) s else .next s

/-- `HostStart(key, block, cmd)`: accepted when BUSY = 0 (R222); while BUSY = 1 it is the protocol violation
StartWhileBusy, checked first, so that nothing is captured (R223, R267). With FAULT set nothing is defined (log 5). -/
def hostStart (key block : Block) (cmd : CmdWord) (s : State) : Host.Outcome State Fault Refusal :=
  match s.fault with
  | some f => .fault f
  | none => if s.busy then .next (s.raiseFault .startWhileBusy (.start key block cmd)) else .next (s.capture key block cmd)

/-- The host's next move; once none is pending the host does nothing (log 2). -/
def nextMove (s : State) : HostMove := s.inputs.headD .idle

/-- The state with the host's next move taken off the list. -/
def State.afterMove (s : State) : State := { s with inputs := s.inputs.tail }

/-- One step taken by the host's move `m` (R221). A Reset is possible in every state (R235, R266, R291). -/
def turn (m : HostMove) (s : State) : Host.Outcome State Fault Refusal :=
  match m with
  | .idle => coreTurn s
  | .start key block cmd => hostStart key block cmd s
  | .reset => .next s.resetStep

/-- The state in which the CORE's next turn performs the command word `cmd`: CMD_R holds it, BUSY = 1, FAULT = none, and
the host's next move leaves the CORE its turn (log 8). -/
def State.withCommand (s : State) (cmd : CmdWord) : State :=
  { s with cmdR := cmd, busy := true, fault := none, inputs := .idle :: s.inputs }

end Sys2Proof.Machine
end

