-- ==== Sys2Proof/Machine/Step.lean ====
section
/-! DEFINITION. One model step (44_des_core.md R221), and where a command stands to be performed next. -/

namespace Sys2Proof.Machine

/-- One step: the host's next move if one is pending, else the CORE's turn (log 2, log 3). -/
def step (s : State) : Host.Outcome State Fault Refusal := turn (nextMove s) s.afterMove

/-- `s` with the table's word `w` in place of the captured command, so that the next step performs it. `cmd_i` has 3
bits (30_encoding.md R90), so only bits 2..0 of `w` are placed (log 8, log 10). -/
def State.withFetchWord (s : State) (nbits w : Nat) : State :=
  let _ := nbits
  s.withCommand (BitVec.ofNat 3 w)

end Sys2Proof.Machine
end

