-- ==== Sys2Proof/Machine/Observe.lean ====
section
/-! DEFINITION. The output ports as observations (30_encoding.md R90, R93, R94, R96; 44_des_core.md R229). A read changes
no state. Each read carries a number `n`, so that a value the spec leaves unspecified is drawn freshly on each read,
in each state and at each select (10_state.md R44; log 7). -/

namespace Sys2Proof.Machine

/-- `pack`: a trace record as 341 bits (R94). -/
def packTrace (t : RoundState) : BitVec 341 :=
  t.round ++ t.k ++ t.lIn ++ t.rIn ++ t.expanded ++ t.xored ++ t.sboxOut ++ t.fOut ++ t.lOut ++ t.rOut

/-- Whether a port that exposes a register with valid flag `valid` shows its contents (R44, R229). -/
def shows (s : State) (valid : Bool) : Bool := s.fault.isNone && !s.busy && valid

/-- `status_o`: always defined unless FAULT is set (R96, R229). -/
def statusO (n : Nat) (s : State) : BitVec 8 :=
  if s.fault.isNone then statusWord s else Config.readStatus n s

/-- `block_o` (R229). -/
def blockO (n : Nat) (s : State) : Block :=
  if shows s s.outValid then s.outR else Config.readBlock n s

/-- `rk_o` with `rk_sel_i = sel` (R93, R229). -/
def rkO (n : Nat) (sel : BitVec 4) (s : State) : RoundKey :=
  if shows s s.rkValid then keyAt s.rk (sel.toNat + 1) else Config.readRoundKey n sel s

/-- `trace_o` with `trace_sel_i = sel` (R94, R229). -/
def traceO (n : Nat) (sel : BitVec 4) (s : State) : BitVec 341 :=
  if shows s s.traceValid then packTrace (recordAt s.trace (sel.toNat + 1)) else Config.readTrace n sel s

/-- The input ports at one clock edge, less `clk_i` (R90, R91); no unknown value can be written (R92; log 15). -/
structure PortsIn where
  rst      : Bool
  start    : Bool
  cmd      : CmdWord
  key      : Block
  block    : Block
  rkSel    : BitVec 4
  traceSel : BitVec 4
deriving DecidableEq, Repr

/-- The output ports (R90). -/
structure PortsOut where
  status : BitVec 8
  block  : Block
  rk     : RoundKey
  trace  : BitVec 341
deriving DecidableEq, Repr

/-- The output ports at read number `n`: combinational in the state and the two selects (R91, R305). -/
def portsOut (n : Nat) (rkSel traceSel : BitVec 4) (s : State) : PortsOut where
  status := statusO n s
  block := blockO n s
  rk := rkO n rkSel s
  trace := traceO n traceSel s

end Sys2Proof.Machine
end

