-- ==== Sys2Proof/Machine/HostScript.lean ====
section
/-! DEFINITION. Host command scripts (30_encoding.md R114) and the host macros (R115): the
host moves a script makes, and what its READs observe on the way. They are notation for what the HOST does, not commands of
the hardware. -/

namespace Sys2Proof.Machine

/-- The mnemonics of a script (R114). -/
inductive Mnemonic where
  | keygen
  | runEnc
  | runDec
  | decrypt
  | rsv3
  | rsv7
deriving DecidableEq, Repr

/-- The code a mnemonic drives on `cmd_i` (R100, R114): dir = 0 for KEYGEN and DECRYPT. -/
def cmdCode : Mnemonic → CmdWord
  | .keygen => 0b000
  | .runEnc => 0b001
  | .runDec => 0b101
  | .decrypt => 0b010
  | .rsv3 => 0b011
  | .rsv7 => 0b111

/-- What a READ observes (R114). -/
inductive ReadPort where
  | status
  | block
  | rk (sel : BitVec 4)
  | trace (sel : BitVec 4)
deriving DecidableEq, Repr

/-- One action of a script (R114). -/
inductive ScriptAction where
  | set (key block : Option Block)
  | start (m : Mnemonic)
  | wait
  | read (p : ReadPort)
  | reset
deriving DecidableEq, Repr

/-- The host moves of a script whose ports hold `key` and `block`: SET changes what is driven and an omitted port is
held, START pulses `start_i`, WAIT leaves the CORE its turn, READ is no step (R221; what it gets
is `runScript`'s), RESET asserts `rst_i` (log 13). -/
def scriptMoves (key block : Block) : List ScriptAction → List HostMove
  | [] => []
  | .set k b :: rest => scriptMoves (k.getD key) (b.getD block) rest
  | .start m :: rest => .start key block (cmdCode m) :: scriptMoves key block rest
  | .wait :: rest => .idle :: scriptMoves key block rest
  | .read _ :: rest => scriptMoves key block rest
  | .reset :: rest => .reset :: scriptMoves key block rest

/-- What a READ gets (R114). -/
inductive Shown where
  | status (v : BitVec 8)
  | block (v : Block)
  | rk (v : RoundKey)
  | trace (v : BitVec 341)
deriving DecidableEq, Repr

/-- `READ p` in state `s`, as read number `n`: the observation function of the port at its select (R114, 44_des_core.md R229).
It changes no state (R78). -/
def readPort (n : Nat) (p : ReadPort) (s : State) : Shown :=
  match p with
  | .status => .status (statusO n s)
  | .block => .block (blockO n s)
  | .rk sel => .rk (rkO n sel s)
  | .trace sel => .trace (traceO n sel s)

/-- What a script leads to: what its READs got, in order, and how it ended. -/
structure ScriptRun where
  shown : List Shown
  ended : Host.Outcome State Fault Refusal

/-- A turn of a script, and the rest of the script from its next state; a turn that stops ends the script. -/
def scriptTurn (o : Host.Outcome State Fault Refusal) (rest : State → ScriptRun) : ScriptRun :=
  match o with
  | .next t => rest t
  | .fault f => { shown := [], ended := .fault f }
  | .refused r => { shown := [], ended := .refused r }

/-- A script run from state `s` with `key` and `block` on the ports and `n` reads made before it (R114; log 13): each START,
WAIT and RESET is one turn, SET only changes what is driven, and each READ observes the state at its point of the script. -/
def runScript (n : Nat) (key block : Block) (s : State) : List ScriptAction → ScriptRun
  | [] => { shown := [], ended := .next s }
  | .set k b :: rest => runScript n (k.getD key) (b.getD block) s rest
  | .start m :: rest =>
    scriptTurn (turn (.start key block (cmdCode m)) s) fun t => runScript n key block t rest
  | .wait :: rest => scriptTurn (turn .idle s) fun t => runScript n key block t rest
  | .read p :: rest =>
    { shown := readPort n p s :: (runScript (n + 1) key block s rest).shown
      ended := (runScript (n + 1) key block s rest).ended }
  | .reset :: rest => scriptTurn (turn .reset s) fun t => runScript n key block t rest

/-- `ENCRYPT k, p` (R115). -/
def encryptScript (k p : Block) : List ScriptAction :=
  [.set (some k) (some p), .start .keygen, .wait, .start .runEnc, .wait]

/-- `DECRYPT2 k, c` (R115). -/
def decrypt2Script (k c : Block) : List ScriptAction :=
  [.set (some k) (some c), .start .keygen, .wait, .start .runDec, .wait]

/-- `SET key=k block=c; START DECRYPT; WAIT` (R115). -/
def decryptScript (k c : Block) : List ScriptAction := [.set (some k) (some c), .start .decrypt, .wait]

end Sys2Proof.Machine
end

