-- ==== Sys2Proof/Machine/Sequences.lean ====
section
/-! DEFINITION. The source's bit-vector utilities on untyped bit sequences, with its one class of failure (60_exceptions.md
R260, R261; 40_bit_primitives.md R130, R131, R132, R136; 42_round_function.md R177; 43_feistel_cipher.md R199). The hardware's widths are fixed, so
no step of the machine raises any of these; this is what an untyped caller gets (log 14). -/

namespace Sys2Proof.Machine

/-- The operation at which a malformed length is found (R260). R260 names xor and cipher entry; R136, R157 and R177 name no
operation, and which one their errors name is a DESIGN CHOICE (log 14): bitsToBytes, the entry of generate, and the entry
of apply with its half-block or its round key. -/
inductive SeqOp where
  | xor
  | bitsToBytes
  | keyEntry
  | roundHalf
  | roundKey
  | cipherEntry
deriving DecidableEq, Repr

/-- The source's malformed inputs, reported at the operation that meets them, never truncated, padded or wrapped (R260, R261). -/
inductive Malformed where
  | lengthMismatch (op : SeqOp) (expected got : Nat)
  | indexOutOfRange (table : List Nat) (j p : Nat)
  | rotateAmountOutOfRange (amount length : Nat)
deriving DecidableEq, Repr

/-- The bits of a block in order, position 1 first (00_scope.md R13). -/
def bitsOf {n : Nat} (v : BitVec n) : List Bool := (List.range n).map v.getMsbD

/-- The bits `permute` selects from entry `j` of `table` on (R130). -/
def permuteFrom (bits : List Bool) (table : List Nat) : Nat → List Nat → Except Malformed (List Bool)
  | _, [] => .ok []
  | j, p :: rest =>
    if 1 ≤ p ∧ p ≤ bits.length then
      match permuteFrom bits table (j + 1) rest with
      | .ok out => .ok (bits.getD (p - 1) false :: out)
      | .error e => .error e
    else .error (.indexOutOfRange table j p)

/-- `permute` on a sequence (R130): an entry outside 1..len fails at that entry. -/
def permuteSeq (bits : List Bool) (table : List Nat) : Except Malformed (List Bool) := permuteFrom bits table 1 table

/-- `rotateLeft` on a sequence (R131): an amount outside 0 ≤ s < len fails. What the error carries R131 leaves open: DESIGN
CHOICE, the amount and the length (log 14). -/
def rotateLeftSeq (bits : List Bool) (s : Nat) : Except Malformed (List Bool) :=
  if s < bits.length then .ok (bits.drop s ++ bits.take s) else .error (.rotateAmountOutOfRange s bits.length)

/-- `xor` on sequences (R132): unequal lengths fail. Which of the two lengths is the expected one R132 and R260 leave open:
DESIGN CHOICE, the first operand's is expected and the second's is got (log 14). -/
def xorSeq (a b : List Bool) : Except Malformed (List Bool) :=
  if a.length = b.length then .ok (List.zipWith Bool.xor a b) else .error (.lengthMismatch .xor a.length b.length)

/-- `bitsToBytes` on a sequence (R136): a length that is no multiple of 8 fails, with the next multiple as
expected (DESIGN CHOICE, log 14). -/
def bitsToBytesSeq (bits : List Bool) : Except Malformed (List (BitVec 8)) :=
  if bits.length % 8 = 0 then
    .ok ((List.range (bits.length / 8)).map fun k => (BitVec.ofBoolListBE ((bits.drop (8 * k)).take 8)).setWidth 8)
  else .error (.lengthMismatch .bitsToBytes (8 * (bits.length / 8 + 1)) bits.length)

/-- A sequence as an n-bit block, or the length failure of operation `op` (R260). -/
def blockOfSeq (n : Nat) (op : SeqOp) (bits : List Bool) : Except Malformed (BitVec n) :=
  if bits.length = n then .ok ((BitVec.ofBoolListBE bits).setWidth n) else .error (.lengthMismatch op n bits.length)

/-- `KeySchedule.generate` on a sequence (R157): a key that is not 64 bits fails. That the error names `keyEntry` is a DESIGN
CHOICE (log 14). -/
def generateSeq (key : List Bool) : Except Malformed (Vector RoundKey 16) :=
  match blockOfSeq 64 .keyEntry key with
  | .ok k => .ok (generate k)
  | .error e => .error e

/-- `RoundFunction.apply` on sequences (42_round_function.md R177): a half-block that is not 32 bits fails, then a round
key that is not 48 bits. The order of the two checks, and that the errors name `roundHalf` and `roundKey` and not the
expansion or the xor inside, are a DESIGN CHOICE (log 14). -/
def applySeq (r k : List Bool) : Except Malformed RoundOut :=
  match blockOfSeq 32 .roundHalf r, blockOfSeq 48 .roundKey k with
  | .ok r, .ok k => .ok (apply r k)
  | .error e, _ => .error e
  | .ok _, .error e => .error e

/-- `FeistelCipher.run` on a sequence (R199): a block that is not 64 bits fails at entry, before any round. The
round keys are typed (DESIGN CHOICE, log 14). -/
def runSeq (block : List Bool) (rk : Vector RoundKey 16) (dir : Dir) : Except Malformed RunResult :=
  match blockOfSeq 64 .cipherEntry block with
  | .ok b => .ok (run b rk dir)
  | .error e => .error e

end Sys2Proof.Machine
end

