-- ==== Sys2Proof/Machine/Clocked.lean ====
section
/-! DEFINITION. The cycle-level protocol of a clocked implementation (70_reset_and_hazards.md R306), over the open
latencies (00_scope.md R12; log 12). Its edges are made of the steps of the untimed model. -/

namespace Sys2Proof.Machine

/-- A clocked des_core: the architectural state and the edges left until the command in flight completes (R306). -/
structure Clocked where
  core : State
  left : Nat
deriving DecidableEq, Repr

/-- The clocked machine right after reset: no command in flight. -/
def Clocked.reset : Clocked where
  core := State.reset
  left := 0

/-- `LAT_op` of a command (R306 item 4). -/
def latencyOf (P : Timing) (i : Instr) : Latency :=
  match i with
  | .keygen _ => P.latKeygen
  | .runEnc => P.latRun
  | .runDec => P.latRun
  | .decrypt _ => P.latDecrypt
  | .rsv _ => P.latReserved

/-- The move the input ports ask for at an edge: reset takes priority over start (R290, R306). -/
def moveOf (i : PortsIn) : HostMove :=
  if i.rst then .reset else if i.start then .start i.key i.block i.cmd else .idle

/-- A clocked outcome from an outcome of the core. -/
def withLeft (o : Host.Outcome State Fault Refusal) (left : Nat) : Host.Outcome Clocked Fault Refusal :=
  match o with
  | .next s => .next { core := s, left := left }
  | .fault f => .fault f
  | .refused r => .refused r

/-- Whether an edge without reset or start leaves the command in flight unfinished (R306 item 4). -/
def stillRunning (c : Clocked) : Bool := c.core.fault.isNone && c.core.busy && decide (1 < c.left)

/-- One rising edge of `clk_i` (R306), using the values just before it: reset, else an accepted start, else a start
while busy, else the completion when its edge has come. -/
def clockEdge (P : Timing) (i : PortsIn) (c : Clocked) : Host.Outcome Clocked Fault Refusal :=
  match moveOf i with
  | .reset => withLeft (turn .reset c.core) 0
  | .start key block cmd =>
    withLeft (turn (.start key block cmd) c.core) (latencyOf P (decode cmd) key block c.core.rk)
  | .idle =>
    if stillRunning c then .next { c with left := c.left - 1 } else withLeft (turn .idle c.core) 0

/-- The edges of a list of port values, in order, stopping at the first fault or refusal. -/
def clockEdges (P : Timing) : List PortsIn → Clocked → Host.Outcome Clocked Fault Refusal
  | [], c => .next c
  | i :: rest, c =>
    match clockEdge P i c with
    | .next c' => clockEdges P rest c'
    | .fault f => .fault f
    | .refused r => .refused r

end Sys2Proof.Machine
end

