-- ==== Sys2Proof/Safety.lean ====
section
/-! DEFINITION. What claims say of a run: the invariant, whose turn a step is, when two states look the same to the host,
and when the host keeps its side of the protocol. -/

namespace Sys2Proof.Machine

/-- What every reachable state without a fault satisfies (10_state.md R31 to R37, 44_des_core.md R228): the status fields
are consistent, ERR is no reserved code, RK holds a generated key schedule where RK_VALID says so, and OUT_R and TRACE
are output and trace of one run under some key schedule where their flags say so. With FAULT set nothing is defined. -/
def Inv (s : State) : Prop :=
  s.fault = none →
    s.err ≠ 0b11 ∧
    s.outValid = s.traceValid ∧
    (s.busy = true → s.done = false) ∧
    (s.done = false → s.err = 0b00) ∧
    (s.rkValid = true → ∃ key, s.rk = generate key) ∧
    (s.outValid = true → ∃ block key dir,
      s.outR = (run block (generate key) dir).output ∧ s.trace = (run block (generate key) dir).trace)

/-- The step is the CORE's turn. -/
def coresTurn (s : State) : Prop := nextMove s = .idle

/-- The step is an accepted start (R222). -/
def acceptsStart (s : State) : Prop :=
  s.fault = none ∧ s.busy = false ∧ ∃ key block cmd, nextMove s = .start key block cmd

/-- The step is a Reset (R290). -/
def resets (s : State) : Prop := nextMove s = .reset

/-- The step is the completion of the captured command (R224). -/
def completes (s : State) : Prop := s.fault = none ∧ s.busy = true ∧ coresTurn s

/-- Two states that no host can tell apart: the same fault mark and the same coming moves; without a fault the same
status, the same capture registers while a command is in flight, and the same contents of every register whose valid
flag is set (10_state.md R44, 70_reset_and_hazards.md R290). -/
def Same (s t : State) : Prop :=
  s.fault = t.fault ∧ s.inputs = t.inputs ∧ s.draws = t.draws ∧
  (s.fault = none →
    s.busy = t.busy ∧ s.done = t.done ∧ s.err = t.err ∧
    s.rkValid = t.rkValid ∧ s.outValid = t.outValid ∧ s.traceValid = t.traceValid ∧
    (s.busy = true → s.keyR = t.keyR ∧ s.blkR = t.blkR ∧ s.cmdR = t.cmdR) ∧
    (s.rkValid = true → s.rk = t.rk) ∧
    (s.outValid = true → s.outR = t.outR) ∧
    (s.traceValid = true → s.trace = t.trace))

/-- Two outcomes of the same kind: next states that look the same, or the same reason to stop. -/
def sameOutcome (o p : Host.Outcome State Fault Refusal) : Prop :=
  match o, p with
  | .next s, .next t => Same s t
  | .fault f, .fault g => f = g
  | .refused r, .refused q => r = q
  | _, _ => False

/-- The host's duty (R233, R300): a start only when BUSY = 0. `busy` is BUSY before the first move. -/
def obeys (busy : Bool) : List HostMove → Bool
  | [] => true
  | .idle :: rest => obeys false rest
  | .start _ _ _ :: rest => !busy && obeys true rest
  | .reset :: rest => obeys false rest

end Sys2Proof.Machine
end

