-- ==== Sys2Proof/Certificates/Slice0/Obligations.lean ====
section
/-! DEFINITION. The statements for the provers, from the numbered rules of spec/. -/

open Sys2Proof Sys2Proof.Machine

/-! ## Encoding -/

/-- R100: the eight command words, each with its row. -/
def Obligations.OpcodeMapDecodes : Prop :=
  decode 0b000 = .keygen 0 ∧ decode 0b100 = .keygen 1 ∧ decode 0b001 = .runEnc ∧ decode 0b101 = .runDec ∧
  decode 0b010 = .decrypt 0 ∧ decode 0b110 = .decrypt 1 ∧ decode 0b011 = .rsv 0 ∧ decode 0b111 = .rsv 1

/-- R95, R100: decoding inverts encoding on well-formed commands, and encoding inverts decoding on every word. -/
def Obligations.DecodeEncodeAgree : Prop :=
  (∀ i : Instr, i.wf = true → decode (encode i) = i) ∧ ∀ w : CmdWord, encode (decode w) = w

/-- R101 to R104: each row of the map is the words its match and mask give, and no others. -/
def Obligations.RowsAreMatchAndMask : Prop :=
  ∀ w : CmdWord,
    ((∃ d, decode w = .keygen d) ↔ w &&& 0b011 = 0b000) ∧
    (decode w = .runEnc ↔ w &&& 0b111 = 0b001) ∧
    (decode w = .runDec ↔ w &&& 0b111 = 0b101) ∧
    ((∃ d, decode w = .decrypt d) ↔ w &&& 0b011 = 0b010) ∧
    ((∃ d, decode w = .rsv d) ↔ w &&& 0b011 = 0b011)

/-- R102, R103, R104: KEYGEN, DECRYPT and the reserved code ignore `dir`. -/
def Obligations.DirIsIgnored : Prop :=
  ∀ (d d' : BitVec 1) (s : State),
    exec (.keygen d) s = exec (.keygen d') s ∧ exec (.decrypt d) s = exec (.decrypt d') s ∧
    exec (.rsv d) s = exec (.rsv d') s

/-! ## Bit-vector primitives -/

/-- R137: the six laws of the primitives. -/
def Obligations.PrimitiveLaws : Prop :=
  (∀ (n m k : Nat) (T1 : Table n m) (T2 : Table m k) (v : BitVec n),
    (∀ j < k, (composeTables T1 T2).entries.getD j 0 = T1.entries.getD (T2.entries.getD j 0 - 1) 0) ∧
    permute (permute v T1) T2 = permute v (composeTables T1 T2)) ∧
  (∀ (n m : Nat) (T : Table n m) (a b : BitVec n), permute (a ^^^ b) T = permute a T ^^^ permute b T) ∧
  (∀ (n s t : Nat) (v : BitVec n), s < n → t < n → rotl (rotl v s) t = rotl v ((s + t) % n)) ∧
  (∀ (n s : Nat) (a b : BitVec n), s < n → rotl (a ^^^ b) s = rotl a s ^^^ rotl b s) ∧
  (∀ (n m : Nat) (T : Table n m) (v : BitVec n), permute (~~~v) T = ~~~permute v T) ∧
  (∀ (n s : Nat) (v : BitVec n), s < n → rotl (~~~v) s = ~~~rotl v s)

/-- R130, corner cases: 0 and all-ones are kept, and a position no entry names does not matter. -/
def Obligations.PermuteCornerCases : Prop :=
  ∀ (n m : Nat) (T : Table n m),
    permute (0#n) T = 0#m ∧ permute (BitVec.allOnes n) T = BitVec.allOnes m ∧
    ∀ (v : BitVec n) (p : Nat), p < n → p + 1 ∉ T.entries →
      permute (v ^^^ BitVec.twoPow n (n - 1 - p)) T = permute v T

/-- R75 item 2, R61: IP and FP are inverse permutations of every block. -/
def Obligations.InitialAndFinalPermutationsInvert : Prop :=
  ∀ x : Block, permute (permute x ROM.IP) ROM.FP = x ∧ permute (permute x ROM.FP) ROM.IP = x

/-- R131: the rotation by sequence index, and as integers. -/
def Obligations.RotationMeaning : Prop :=
  ∀ (n s : Nat) (v : BitVec n), s < n →
    (∀ i < n, (rotl v s).getMsbD i = v.getMsbD ((i + s) % n)) ∧
    rotl v s = (v <<< s) ||| (v >>> (n - s))

/-- R133, R134: halving inverts concatenation, and concatenation is `a·2^k + b`. -/
def Obligations.SplitInvertsConcat : Prop :=
  (∀ (n : Nat) (a b : BitVec n), split (a ++ b) = (a, b)) ∧
  (∀ (n : Nat) (v : BitVec (n + n)), (split v).1 ++ (split v).2 = v) ∧
  ∀ (m k : Nat) (a : BitVec m) (b : BitVec k), (a ++ b).toNat = a.toNat * 2 ^ k + b.toNat

/-- R136, R76: byte k holds positions 8k+1 to 8k+8, the first of them its most significant bit. -/
def Obligations.BytesAreBigEndian : Prop :=
  ∀ (n : Nat) (v : BitVec (8 * n)), (bitsToBytes v).length = n ∧
    ∀ k < n, ∀ j < 8, ((bitsToBytes v).getD k 0).getMsbD j = v.getMsbD (8 * k + j)

/-! ## Key schedule -/

/-- R159: the halves of round r are the initial halves rotated by the first r shifts, and round key r is PC2 of them. -/
def Obligations.ScheduleIsMonotonic : Prop :=
  ∀ (key : Block) (r : Nat), r ≤ 16 →
    scheduleHalves key r =
      (rotl (keyHalves (permute key ROM.PC1)).1 ((ROM.SHIFT.take r).sum % 28),
       rotl (keyHalves (permute key ROM.PC1)).2 ((ROM.SHIFT.take r).sum % 28)) ∧
    (1 ≤ r → keyAt (generate key) r =
      permute (n := 56) ((scheduleHalves key r).1 ++ (scheduleHalves key r).2) ROM.PC2)

/-- R160: after sixteen rounds the halves are the initial ones, so the last key is PC2 of the un-rotated halves. -/
def Obligations.ScheduleFullCycle : Prop :=
  ∀ key : Block,
    scheduleHalves key 16 = keyHalves (permute key ROM.PC1) ∧
    keyAt (generate key) 16 = permute (permute key ROM.PC1) ROM.PC2

/-- R161: sixteen keys; halves all-zero or all-one give one key, and key 0 gives sixteen zeros; complement; and
distinctness is no law. -/
def Obligations.RoundKeyLaws : Prop :=
  (∀ key : Block, (generate key).toList.length = 16) ∧
  (∀ key : Block,
    ((keyHalves (permute key ROM.PC1)).1 = 0#28 ∨ (keyHalves (permute key ROM.PC1)).1 = BitVec.allOnes 28) →
    ((keyHalves (permute key ROM.PC1)).2 = 0#28 ∨ (keyHalves (permute key ROM.PC1)).2 = BitVec.allOnes 28) →
    ∀ i j : Fin 16, (generate key)[i] = (generate key)[j]) ∧
  (∀ key ∈ [0x0000000000000000#64, 0xFFFFFFFFFFFFFFFF#64, 0x1F1F1F1F0E0E0E0E#64, 0xE0E0E0E0F1F1F1F1#64],
    ∀ i j : Fin 16, (generate key)[i] = (generate key)[j]) ∧
  (permute (0 : Block) ROM.PC1 = 0 ∧ ∀ i : Fin 16, (generate 0)[i] = 0) ∧
  (∀ (key : Block) (i : Fin 16), (generate (~~~key))[i] = ~~~(generate key)[i]) ∧
  ¬∀ (key : Block) (i j : Fin 16), i ≠ j → (generate key)[i] ≠ (generate key)[j]

/-- R162: keys that differ only at the parity positions give the same round keys, and every command the same results. -/
def Obligations.ParityPositionsDoNotMatter : Prop :=
  ∀ k k' : Block, (∀ p, 1 ≤ p → p ≤ 64 → p % 8 ≠ 0 → bitAt k p = bitAt k' p) →
    generate k = generate k' ∧
    ∀ (i : Instr) (s t : State), exec i { s with keyR := k } = .next t →
      exec i { s with keyR := k' } = .next { t with keyR := k' }

/-! ## Round function -/

/-- R107: the six bits of each group, and its row and column. -/
def Obligations.SboxOperand : Prop :=
  (∀ (x : RoundKey) (i : Nat), 1 ≤ i → i ≤ 8 → ∀ j < 6, (group x i).getMsbD j = x.getMsbD (6 * (i - 1) + j)) ∧
  (∀ g : BitVec 6,
    row g = 2 * (g.getMsbD 0).toNat + (g.getMsbD 5).toNat ∧
    col g = 8 * (g.getMsbD 1).toNat + 4 * (g.getMsbD 2).toNat + 2 * (g.getMsbD 3).toNat + (g.getMsbD 4).toNat) ∧
  row 0b100001 = 3 ∧ col 0b100001 = 0

/-- R108, R174, R175: nibble i of the S-box output is the value S-box i gives for group i. -/
def Obligations.SboxOutputAssembly : Prop :=
  ∀ (x : RoundKey) (i : Nat), 1 ≤ i → i ≤ 8 →
    (substitute x).extractLsb' (32 - 4 * i) 4 = BitVec.ofNat 4 (ROM.S i (row (group x i)) (col (group x i)))

/-- R178: lane i reads its own six bits and nothing else, and changing them changes no other nibble. -/
def Obligations.SboxLanesAreIndependent : Prop :=
  ∀ (x y : RoundKey) (i : Nat), 1 ≤ i → i ≤ 8 →
    (∀ j < 6, x.getMsbD (6 * (i - 1) + j) = y.getMsbD (6 * (i - 1) + j)) →
    ∀ j < 4, (substitute x).getMsbD (4 * (i - 1) + j) = (substitute y).getMsbD (4 * (i - 1) + j)

/-- R179: the S-box output and f depend on the XOR result alone; complementing both inputs leaves the XOR result and f;
determinism. -/
def Obligations.RoundFunctionLaws : Prop :=
  (∀ (r r' : HalfBlock) (k k' : RoundKey), permute r ROM.E ^^^ k = permute r' ROM.E ^^^ k' →
    (apply r k).sboxOut = (apply r' k').sboxOut ∧ (apply r k).fOut = (apply r' k').fOut) ∧
  (∀ (r : HalfBlock) (k : RoundKey), permute (~~~r) ROM.E ^^^ ~~~k = permute r ROM.E ^^^ k ∧
    (apply (~~~r) (~~~k)).fOut = (apply r k).fOut) ∧
  ∀ (r r' : HalfBlock) (k k' : RoundKey), r = r' → k = k' → apply r k = apply r' k'

/-! ## Feistel cipher -/

/-- R196, with R191, R193 and R194: every field of the record of round r. -/
def Obligations.RoundSnapshot : Prop :=
  ∀ (block : Block) (rk : Vector RoundKey 16) (dir : Dir) (i : Fin 16) (t : RoundState),
    t = (run block rk dir).trace[i] →
    t.round.toNat = i.val + 1 ∧
    t.k = (match dir with | .decrypt => rk[15 - i.val] | .encrypt => rk[i]) ∧
    t.lIn = (halves block rk dir i.val).1 ∧ t.rIn = (halves block rk dir i.val).2 ∧
    t.expanded = permute t.rIn ROM.E ∧ t.xored = t.expanded ^^^ t.k ∧
    t.sboxOut = substitute t.xored ∧ t.fOut = permute t.sboxOut ROM.P ∧
    t.lOut = (halves block rk dir (i.val + 1)).1 ∧ t.rOut = (halves block rk dir (i.val + 1)).2

/-- R201: the trace is a chain of rounds from IP of the block to the output. -/
def Obligations.TraceChains : Prop :=
  ∀ (block : Block) (rk : Vector RoundKey 16) (dir : Dir) (out : RunResult), out = run block rk dir →
    (∀ i : Fin 16, ∀ h : i.val + 1 < 16,
      out.trace[i.val + 1].lIn = out.trace[i].lOut ∧ out.trace[i.val + 1].rIn = out.trace[i].rOut) ∧
    (∀ i : Fin 16, out.trace[i].lOut = out.trace[i].rIn ∧
      out.trace[i].rOut = out.trace[i].lIn ^^^ out.trace[i].fOut) ∧
    out.trace[0].lIn ++ out.trace[0].rIn = permute block ROM.IP ∧
    permute (n := 64) (out.trace[15].rOut ++ out.trace[15].lOut) ROM.FP = out.output

/-- R202: a run in either direction is undone by a run in the other, for any sixteen round keys. -/
def Obligations.RunRoundTrips : Prop :=
  ∀ (p : Block) (ks : Vector RoundKey 16),
    (run (run p ks .encrypt).output ks .decrypt).output = p ∧
    (run (run p ks .decrypt).output ks .encrypt).output = p

/-- R204: decrypting an encryption walks its halves backwards, with the same keys and f outputs. -/
def Obligations.RoundStatesCorrespond : Prop :=
  ∀ (p c : Block) (ks : Vector RoundKey 16), c = (run p ks .encrypt).output →
    (∀ r ≤ 16, halves c ks .decrypt r = ((halves p ks .encrypt (16 - r)).2, (halves p ks .encrypt (16 - r)).1)) ∧
    ∀ i : Fin 16,
      (run c ks .decrypt).trace[i].fOut = (run p ks .encrypt).trace[15 - i.val].fOut ∧
      (run c ks .decrypt).trace[i].k = (run p ks .encrypt).trace[15 - i.val].k

/-- R205: keys read the same in both orders give the same run in both directions; a schedule that is another's reverse
turns encryption into the other's decryption. -/
def Obligations.DirectionSymmetricKeys : Prop :=
  (∀ rk : Vector RoundKey 16, (∀ i : Fin 16, rk[i] = rk[15 - i.val]) →
    ∀ b : Block, run b rk .encrypt = run b rk .decrypt) ∧
  (∀ rk rk' : Vector RoundKey 16, (∀ i : Fin 16, rk'[i] = rk[15 - i.val]) →
    ∀ b : Block, run b rk .encrypt = run b rk' .decrypt) ∧
  (∀ key ∈ [0x0101010101010101#64, 0x0000000000000000#64], ∀ i : Fin 16,
    (generate key)[i] = (generate key)[15 - i.val]) ∧
  ∀ i : Fin 16, (generate 0xFE01FE01FE01FE01)[i] = (generate 0x01FE01FE01FE01FE)[15 - i.val]

/-- R206: complementing key and block complements the output. -/
def Obligations.RunComplements : Prop :=
  ∀ (b k : Block) (dir : Dir), (run (~~~b) (generate (~~~k)) dir).output = ~~~(run b (generate k) dir).output

/-! ## Commands -/

/-- R158: KEYGEN completes in every state, writes RK, RK_VALID and the status, and nothing else. -/
def Obligations.KeygenCompletes : Prop :=
  ∀ (d : BitVec 1) (s : State),
    exec (.keygen d) s = .next { s with
      rk := generate s.keyR, rkValid := true, err := 0b00, busy := false, done := true }

/-- R203: RUN.ENC and RUN.DEC complete with a key schedule, writing OUT_R, TRACE, their flags and the status and nothing
else, and complete without one with NO_KEYS and nothing else written. -/
def Obligations.RunCompletes : Prop :=
  ∀ s : State,
    (s.rkValid = true →
      exec .runEnc s = .next { s with
        outR := (run s.blkR s.rk .encrypt).output, trace := (run s.blkR s.rk .encrypt).trace,
        outValid := true, traceValid := true, err := 0b00, busy := false, done := true } ∧
      exec .runDec s = .next { s with
        outR := (run s.blkR s.rk .decrypt).output, trace := (run s.blkR s.rk .decrypt).trace,
        outValid := true, traceValid := true, err := 0b00, busy := false, done := true }) ∧
    (s.rkValid = false →
      exec .runEnc s = .next { s with err := 0b10, busy := false, done := true } ∧
      exec .runDec s = .next { s with err := 0b10, busy := false, done := true })

/-- R227: DECRYPT completes in every state, whatever RK and RK_VALID held, and writes what KEYGEN and a decrypting run
write; and it is KEYGEN followed by RUN.DEC. -/
def Obligations.DecryptCompletes : Prop :=
  ∀ (d : BitVec 1) (s : State),
    exec (.decrypt d) s = .next { s with
      rk := generate s.keyR, rkValid := true,
      outR := desDecrypt s.keyR s.blkR, trace := (run s.blkR (generate s.keyR) .decrypt).trace,
      outValid := true, traceValid := true, err := 0b00, busy := false, done := true } ∧
    ∃ t, exec (.keygen d) s = .next t ∧ exec .runDec t = exec (.decrypt d) s

/-- R262: a reserved code completes with ILLEGAL_OP and changes no data register and no valid bit. -/
def Obligations.ReservedCompletes : Prop :=
  ∀ (d : BitVec 1) (s : State),
    exec (.rsv d) s = .next { s with err := 0b01, busy := false, done := true }

/-- The frame of the commands (R43): none writes a capture register, FAULT, the host's moves or the draw counter; KEYGEN
leaves OUT_R, TRACE and their flags; RUN leaves RK and RK_VALID; the reserved code leaves all data and flags; and every
command ends with BUSY = 0 and DONE = 1. -/
def Obligations.CommandFrames : Prop :=
  ∀ (i : Instr) (s t : State), exec i s = .next t →
    t.keyR = s.keyR ∧ t.blkR = s.blkR ∧ t.cmdR = s.cmdR ∧ t.fault = s.fault ∧ t.inputs = s.inputs ∧
    t.draws = s.draws ∧ t.busy = false ∧ t.done = true ∧
    ((∃ d, i = .keygen d) → t.outR = s.outR ∧ t.trace = s.trace ∧ t.outValid = s.outValid ∧
      t.traceValid = s.traceValid) ∧
    (i = .runEnc ∨ i = .runDec → t.rk = s.rk ∧ t.rkValid = s.rkValid) ∧
    ((∃ d, i = .rsv d) → t.rk = s.rk ∧ t.rkValid = s.rkValid ∧ t.outR = s.outR ∧ t.trace = s.trace ∧
      t.outValid = s.outValid ∧ t.traceValid = s.traceValid)

/-- R263, R267, R33: which command reports which code, and that no command reports code 11. -/
def Obligations.ErrorCodes : Prop :=
  ∀ (i : Instr) (s t : State), exec i s = .next t →
    (t.err = 0b01 ↔ ∃ d, i = .rsv d) ∧
    (t.err = 0b10 ↔ (i = .runEnc ∨ i = .runDec) ∧ s.rkValid = false) ∧
    t.err ≠ 0b11

/-- R268: an erroring command writes ERR, BUSY and DONE and nothing else. -/
def Obligations.ErrorsArePrecise : Prop :=
  ∀ (i : Instr) (s t : State), exec i s = .next t → t.err ≠ 0b00 →
    t = { s with err := t.err, busy := false, done := true }

/-- R236: what a command writes to RK, OUT_R and TRACE is determined by KEY_R and BLK_R, and for RUN by the RK present. -/
def Obligations.ResultsArePure : Prop :=
  ∀ (i : Instr) (s t s' t' : State), exec i s = .next s' → exec i t = .next t' →
    s.keyR = t.keyR → s.blkR = t.blkR →
    ((∃ d, i = .keygen d) → s'.rk = t'.rk) ∧
    ((∃ d, i = .decrypt d) → s'.rk = t'.rk ∧ s'.outR = t'.outR ∧ s'.trace = t'.trace) ∧
    (i = .runEnc ∨ i = .runDec → s.rkValid = true → t.rkValid = true → s.rk = t.rk →
      s'.outR = t'.outR ∧ s'.trace = t'.trace)

/-! ## Steps -/

/-- R224, R225: while BUSY without a fault, the CORE's turn is `exec` of the decoded command word. -/
def Obligations.StepPerformsCommand : Prop :=
  ∀ s : State, s.fault = none → s.busy = true → nextMove s = .idle →
    step s = exec (decode s.cmdR) { s with inputs := s.inputs.tail }

/-- The model's placement of a word (log 8, log 10): the next step performs the command the decoder reads from it. -/
def Obligations.PlacedWordIsPerformed : Prop :=
  ∀ (s : State) (nbits w : Nat), ∃ i, decodeTableWord nbits w = some i ∧
    step (s.withFetchWord nbits w) =
      exec i { s with cmdR := BitVec.ofNat 3 w, busy := true, fault := none }

/-- R277: an idle core holds its state. -/
def Obligations.IdleHolds : Prop :=
  ∀ s : State, s.fault = none → s.busy = false →
    (nextMove s = .idle → step s = .next { s with inputs := s.inputs.tail }) ∧
    (s.inputs = [] → ∀ k : Nat, Sys2Proof.core.run k s = .next s)

/-- R222: an accepted start captures the ports, sets BUSY, clears DONE and ERR, and changes nothing else; the command
then performed is the captured one, on the captured key and block. -/
def Obligations.StartIsAccepted : Prop :=
  ∀ (s : State) (key block : Block) (cmd : CmdWord), s.fault = none → s.busy = false →
    nextMove s = .start key block cmd →
    ∃ t, step s = .next t ∧
      t = { s with
        keyR := key, blkR := block, cmdR := cmd, busy := true, done := false, err := 0b00,
        inputs := s.inputs.tail } ∧
      (nextMove t = .idle → step t = exec (decode cmd) { t with inputs := t.inputs.tail })

/-- R223: a start while BUSY sets FAULT to StartWhileBusy. -/
def Obligations.StartWhileBusyFaults : Prop :=
  ∀ (s : State) (key block : Block) (cmd : CmdWord), s.fault = none → s.busy = true →
    nextMove s = .start key block cmd →
    ∃ t, step s = .next t ∧ t.fault = some .startWhileBusy ∧ t.inputs = s.inputs.tail

/-- R266: with FAULT set there is no completion, every port is a free value, and no step clears it: a Reset keeps it, and
every other step stops (the stop is the model's reading, log 5). -/
def Obligations.FaultIsFinal : Prop :=
  ∀ (s : State) (f : Fault), s.fault = some f →
    (nextMove s ≠ .reset → step s = .fault f) ∧
    (∀ t, step s = .next t → nextMove s = .reset ∧ t.fault = some f) ∧
    ∀ (n : Nat) (rkSel traceSel : BitVec 4), portsOut n rkSel traceSel s =
      { status := Config.readStatus n s, block := Config.readBlock n s, rk := Config.readRoundKey n rkSel s,
        trace := Config.readTrace n traceSel s }

/-- R291, R292, R235: a Reset in any state, also while BUSY, clears the status fields and leaves FAULT; the command in
flight leaves nothing a port shows; and a second Reset changes nothing more, the registers R290 leaves open included,
which a Reset keeps by the model's choice (log 6). -/
def Obligations.ResetAbandonsCommand : Prop :=
  ∀ s : State, nextMove s = .reset →
    ∃ t, step s = .next t ∧ t.busy = false ∧ t.done = false ∧ t.err = 0b00 ∧ t.rkValid = false ∧
      t.outValid = false ∧ t.traceValid = false ∧ t.fault = s.fault ∧ t.inputs = s.inputs.tail ∧
      t.resetStep = t ∧
      (s.fault = none → ∀ (n : Nat) (rkSel traceSel : BitVec 4), portsOut n rkSel traceSel t =
        { status := 0x00, block := Config.readBlock n t, rk := Config.readRoundKey n rkSel t,
          trace := Config.readTrace n traceSel t })

/-- R42, R293: what the initial state holds, in the fields R42 gives a value. -/
def Obligations.ResetState : Prop :=
  State.reset.busy = false ∧ State.reset.done = false ∧ State.reset.err = 0b00 ∧ State.reset.rkValid = false ∧
  State.reset.outValid = false ∧ State.reset.traceValid = false ∧ State.reset.fault = none ∧
  ∀ n, statusO n State.reset = 0x00

/-- R43: every change of a register has a cause that R43 names. That a Reset is no such cause for KEY_R, BLK_R, CMD_R, RK,
OUT_R and TRACE, which R290 leaves open, is the model's choice (log 6). -/
def Obligations.EveryWriteHasItsCause : Prop :=
  ∀ s t : State, step s = .next t → t.fault = none →
    (t.keyR ≠ s.keyR ∨ t.blkR ≠ s.blkR ∨ t.cmdR ≠ s.cmdR → acceptsStart s) ∧
    (t.rk ≠ s.rk → completes s ∧ ∃ d, decode s.cmdR = .keygen d ∨ decode s.cmdR = .decrypt d) ∧
    (t.rkValid ≠ s.rkValid →
      resets s ∨ completes s ∧ ∃ d, decode s.cmdR = .keygen d ∨ decode s.cmdR = .decrypt d) ∧
    (t.outR ≠ s.outR ∨ t.trace ≠ s.trace → completes s ∧
      ((∃ d, decode s.cmdR = .decrypt d) ∨
        (decode s.cmdR = .runEnc ∨ decode s.cmdR = .runDec) ∧ s.rkValid = true)) ∧
    (t.outValid ≠ s.outValid ∨ t.traceValid ≠ s.traceValid → resets s ∨ completes s ∧
      ((∃ d, decode s.cmdR = .decrypt d) ∨
        (decode s.cmdR = .runEnc ∨ decode s.cmdR = .runDec) ∧ s.rkValid = true)) ∧
    (t.busy ≠ s.busy ∨ t.done ≠ s.done ∨ t.err ≠ s.err → acceptsStart s ∨ completes s ∨ resets s)

/-- R33 to R37, R228: the invariant holds after reset. -/
def Obligations.InvAtReset : Prop := Inv State.reset

/-- R33 to R37, R228: every step keeps the invariant, from every state that has it. -/
def Obligations.StepKeepsInv : Prop :=
  ∀ s t : State, Inv s → step s = .next t → Inv t

/-- R42, R44, R290: nothing the host can drive tells apart two states that look the same. In particular no result of any
command depends on what a register held at reset (log 1) or kept through a Reset (log 6). -/
def Obligations.SameStatesStaySame : Prop :=
  ∀ s t : State, Same s t → ∀ k : Nat, sameOutcome (Sys2Proof.core.run k s) (Sys2Proof.core.run k t)

/-- R44, R229: states that look the same show the same on every port at every read the spec defines, whichever reads of
each are compared, and define the same reads. Of unspecified reads nothing is claimed, as R44 asks. -/
def Obligations.SameStatesShowSame : Prop :=
  ∀ s t : State, Same s t → s.fault = none → ∀ (n m : Nat) (sel : BitVec 4),
    statusO n s = statusO m t ∧
    (shows s s.outValid = shows t t.outValid ∧ shows s s.rkValid = shows t t.rkValid ∧
      shows s s.traceValid = shows t t.traceValid) ∧
    (shows s s.outValid = true → blockO n s = blockO m t) ∧
    (shows s s.rkValid = true → rkO n sel s = rkO m sel t) ∧
    (shows s s.traceValid = true → traceO n sel s = traceO m sel t)

/-- R290: after a Reset nothing tells what the registers held before, and after reset nothing tells what the registers
that R42 leaves unspecified hold. -/
def Obligations.ResetForgets : Prop :=
  (∀ s t : State, s.fault = t.fault → s.inputs = t.inputs → s.draws = t.draws → Same s.resetStep t.resetStep) ∧
  ∀ (key block out : Block) (cmd : CmdWord) (keys : Vector RoundKey 16) (records : Vector RoundState 16),
    Same State.reset { State.reset with
      keyR := key, blkR := block, cmdR := cmd, rk := keys, outR := out, trace := records }

/-- R233, R300: a host that starts only when BUSY = 0 never causes a fault, however long it goes on. -/
def Obligations.ObedientHostNeverFaults : Prop :=
  ∀ s : State, s.fault = none → obeys s.busy s.inputs = true →
    ∀ k : Nat, ∃ t, Sys2Proof.core.run k s = .next t ∧ t.fault = none

/-! ## Ports -/

/-- R96: the status word, field by field, in every state without a fault, and its reset value. -/
def Obligations.StatusWordFields : Prop :=
  (∀ (n : Nat) (s : State), s.fault = none →
    (statusO n s).getLsbD 0 = s.busy ∧ (statusO n s).getLsbD 1 = s.done ∧
    (statusO n s).extractLsb' 2 2 = s.err ∧ (statusO n s).getLsbD 4 = s.rkValid ∧
    (statusO n s).getLsbD 5 = s.outValid ∧ (statusO n s).getLsbD 6 = s.traceValid ∧
    (statusO n s).getLsbD 7 = false) ∧
  ∀ n : Nat, statusO n State.reset = 0x00

/-- R44, R229: each data port shows its register when BUSY = 0, its flag is set and there is no fault, and a free value
otherwise. -/
def Obligations.DataPortsAreGated : Prop :=
  ∀ (n : Nat) (s : State) (i : Fin 16),
    (s.fault = none → s.busy = false →
      (s.outValid = true → blockO n s = s.outR) ∧
      (s.rkValid = true → rkO n (BitVec.ofNat 4 i) s = s.rk[i]) ∧
      (s.traceValid = true → traceO n (BitVec.ofNat 4 i) s = packTrace s.trace[i])) ∧
    (s.fault ≠ none ∨ s.busy = true ∨ s.outValid = false → blockO n s = Config.readBlock n s) ∧
    (s.fault ≠ none ∨ s.busy = true ∨ s.rkValid = false →
      rkO n (BitVec.ofNat 4 i) s = Config.readRoundKey n (BitVec.ofNat 4 i) s) ∧
    (s.fault ≠ none ∨ s.busy = true ∨ s.traceValid = false →
      traceO n (BitVec.ofNat 4 i) s = Config.readTrace n (BitVec.ofNat 4 i) s)

/-- R94: the fields of the trace port. -/
def Obligations.TracePortLayout : Prop :=
  ∀ (n : Nat) (s : State) (i : Fin 16) (w : BitVec 341) (t : RoundState),
    w = traceO n (BitVec.ofNat 4 i) s → t = s.trace[i] →
    (s.fault = none → s.busy = false → s.traceValid = true →
      w.extractLsb' 336 5 = t.round ∧ w.extractLsb' 288 48 = t.k ∧
      w.extractLsb' 256 32 = t.lIn ∧ w.extractLsb' 224 32 = t.rIn ∧
      w.extractLsb' 176 48 = t.expanded ∧ w.extractLsb' 128 48 = t.xored ∧
      w.extractLsb' 96 32 = t.sboxOut ∧ w.extractLsb' 64 32 = t.fOut ∧
      w.extractLsb' 32 32 = t.lOut ∧ w.extractLsb' 0 32 = t.rOut) ∧
    (s.fault ≠ none ∨ s.busy = true ∨ s.traceValid = false → w = Config.readTrace n (BitVec.ofNat 4 i) s)

/-- R25, R26, R27: no port shows a capture register at a read the spec defines, and none decides which reads it defines. Of
unspecified reads nothing is claimed, as R44 asks. -/
def Obligations.CaptureRegistersAreHidden : Prop :=
  ∀ (s t : State) (key block : Block) (cmd : CmdWord), t = { s with keyR := key, blkR := block, cmdR := cmd } →
    s.fault = none → ∀ (n m : Nat) (sel : BitVec 4),
      statusO n s = statusO m t ∧
      (shows s s.outValid = shows t t.outValid ∧ shows s s.rkValid = shows t t.rkValid ∧
        shows s s.traceValid = shows t t.traceValid) ∧
      (shows s s.outValid = true → blockO n s = blockO m t) ∧
      (shows s s.rkValid = true → rkO n sel s = rkO m sel t) ∧
      (shows s s.traceValid = true → traceO n sel s = traceO m sel t)

/-- R303: while a command is in flight the data ports are free values and the status is BUSY = 1, DONE = 0, ERR = 00 with
the valid bits of before the start. -/
def Obligations.PortsWhileBusy : Prop :=
  ∀ (s : State) (key block : Block) (cmd : CmdWord), s.fault = none → s.busy = false →
    nextMove s = .start key block cmd →
    ∃ t, step s = .next t ∧ ∀ (n : Nat) (rkSel traceSel : BitVec 4), portsOut n rkSel traceSel t =
      { status := 0#1 ++ BitVec.ofBool s.traceValid ++ BitVec.ofBool s.outValid ++ BitVec.ofBool s.rkValid ++ 0b0001#4,
        block := Config.readBlock n t, rk := Config.readRoundKey n rkSel t, trace := Config.readTrace n traceSel t }

/-! ## Command sequences -/

/-- R234: from an idle state, DECRYPT of `c` under `k` shows the plaintext, the round keys, the trace and status 0x72. -/
def Obligations.DecryptTopLevel : Prop :=
  ∀ (s : State) (k c : Block), s.fault = none → s.busy = false →
    s.inputs = [.start k c 0b010, .idle] →
    ∃ t, Sys2Proof.core.run 2 s = .next t ∧ ∀ (n : Nat) (i : Fin 16),
      blockO n t = desDecrypt k c ∧ rkO n (BitVec.ofNat 4 i) t = (generate k)[i] ∧
      traceO n (BitVec.ofNat 4 i) t = packTrace (run c (generate k) .decrypt).trace[i] ∧
      statusO n t = 0x72

/-- R302: KEYGEN leaves the results of the last run on the ports while `rk_o` shows the new keys; DECRYPT leaves its own
keys for a later RUN. -/
def Obligations.StaleResults : Prop :=
  (∀ (s : State) (k b : Block), s.fault = none → s.busy = false → s.outValid = true → s.traceValid = true →
    s.inputs = [.start k b 0b000, .idle] →
    ∃ t, Sys2Proof.core.run 2 s = .next t ∧ t.outValid = true ∧ ∀ (n : Nat) (i : Fin 16),
      blockO n t = s.outR ∧ traceO n (BitVec.ofNat 4 i) t = packTrace s.trace[i] ∧
      rkO n (BitVec.ofNat 4 i) t = (generate k)[i]) ∧
  ∀ (s t : State) (d : BitVec 1), exec (.decrypt d) s = .next t → ∀ key block : Block,
    (∃ u, exec .runEnc (t.capture key block 0b001) = .next u ∧
      u.outR = (run block (generate s.keyR) .encrypt).output) ∧
    ∃ u, exec .runDec (t.capture key block 0b101) = .next u ∧
      u.outR = (run block (generate s.keyR) .decrypt).output

/-- R115: DECRYPT2 leaves what DECRYPT leaves. How a script becomes host moves is the model's choice (log 13). -/
def Obligations.Decrypt2LeavesWhatDecryptLeaves : Prop :=
  ∀ (s : State) (k c key block : Block), s.fault = none → s.busy = false →
    ∃ t u,
      Sys2Proof.core.run 4 { s with inputs := scriptMoves key block (decrypt2Script k c) } = .next t ∧
      Sys2Proof.core.run 2 { s with inputs := scriptMoves key block (decryptScript k c) } = .next u ∧
      t.rk = u.rk ∧ t.outR = u.outR ∧ t.trace = u.trace ∧ t.rkValid = u.rkValid ∧ t.outValid = u.outValid ∧
      t.traceValid = u.traceValid ∧ t.rkValid = true ∧ t.outValid = true ∧ t.traceValid = true

/-- R202 on the whole machine: what the host reads after ENCRYPT, given to DECRYPT with the same key, reads back as the
plaintext, from every idle state. How a script becomes host moves is the model's choice (log 13). -/
def Obligations.EncryptThenDecryptRestores : Prop :=
  ∀ (s : State) (k p key block : Block), s.fault = none → s.busy = false →
    ∃ t, Sys2Proof.core.run 4 { s with inputs := scriptMoves key block (encryptScript k p) } = .next t ∧
      ∀ n : Nat, ∃ u,
        Sys2Proof.core.run 2 { t with inputs := scriptMoves key block (decryptScript k (blockO n t)) } = .next u ∧
        ∀ m : Nat, blockO m u = p

/-! ## Clocked view -/

/-- R306: at an edge reset wins; a start when BUSY = 0 is accepted; a start while BUSY faults, at the completing edge too;
and an accepted command completes exactly `LAT_op` edges later. -/
def Obligations.ClockProtocol : Prop :=
  ∀ (P : Timing), P.wf → ∀ (i : PortsIn) (c : Clocked),
    (i.rst = true → clockEdge P i c = .next { core := c.core.resetStep, left := 0 }) ∧
    (i.rst = false → i.start = true → c.core.fault = none → c.core.busy = true →
      ∃ t, clockEdge P i c = .next t ∧ t.core.fault = some .startWhileBusy) ∧
    (i.rst = false → i.start = true → c.core.fault = none → c.core.busy = false →
      ∀ (s : State) (lat : Nat), s = c.core.capture i.key i.block i.cmd →
        lat = latencyOf P (decode i.cmd) i.key i.block c.core.rk →
        ∀ quiet : List PortsIn, (∀ q ∈ quiet, q.rst = false ∧ q.start = false) →
          (quiet.length < lat → clockEdges P (i :: quiet) c = .next { core := s, left := lat - quiet.length }) ∧
          (quiet.length = lat → ∃ t, exec (decode i.cmd) s = .next t ∧
            clockEdges P (i :: quiet) c = .next { core := t, left := 0 }))

/-- R307: along every list of edges the clocked core is where some list of untimed moves leads, each edge being one
untimed step or none; so what holds of every untimed run holds of every clocked one, whatever the latencies. After a
protocol violation, where R223 and R264 leave the registers unspecified, the two are only said to look the same: the same
FAULT, host moves and draws. -/
def Obligations.ClockRefinesSteps : Prop :=
  ∀ (P : Timing) (edges : List PortsIn) (c d : Clocked), clockEdges P edges c = .next d →
    ∃ (moves : List HostMove) (u : State), moves.length ≤ edges.length ∧
      Sys2Proof.core.run moves.length { c.core with inputs := moves ++ c.core.inputs } = .next u ∧
      (d.core.fault = none → u = d.core) ∧ Same u d.core

/-! ## Untyped sequences -/

/-- R130 to R132, R136, R157, R177 and R200 on sequences: on inputs of the right lengths they agree with the hardware's operations. -/
def Obligations.SequencesAgree : Prop :=
  (∀ (n m : Nat) (v : BitVec n) (T : Table n m), permuteSeq (bitsOf v) T.entries = .ok (bitsOf (permute v T))) ∧
  (∀ (n s : Nat) (v : BitVec n), s < n → rotateLeftSeq (bitsOf v) s = .ok (bitsOf (rotl v s))) ∧
  (∀ (n : Nat) (a b : BitVec n), xorSeq (bitsOf a) (bitsOf b) = .ok (bitsOf (a ^^^ b))) ∧
  (∀ (n : Nat) (v : BitVec (8 * n)), bitsToBytesSeq (bitsOf v) = .ok (bitsToBytes v)) ∧
  (∀ (r : HalfBlock) (k : RoundKey), applySeq (bitsOf r) (bitsOf k) = .ok (apply r k)) ∧
  ∀ (key block : Block) (rk : Vector RoundKey 16) (dir : Dir),
    generateSeq (bitsOf key) = .ok (generate key) ∧ runSeq (bitsOf block) rk dir = .ok (run block rk dir)

/-- R260, R261, R177, R199 on sequences: a malformed length, index or amount is an error at its operation, never truncated,
padded or wrapped. The model's choices (log 14): the names of the operations
other than `xor` and cipher entry, of `xor`'s two lengths the first operand's is the expected one, of two
malformed arguments of `apply` the half-block is named, and the rotation's error carries amount and length. -/
def Obligations.SequencesFailFast : Prop :=
  (∀ (bits : List Bool) (table : List Nat), (∃ p ∈ table, p < 1 ∨ bits.length < p) →
    ∃ j p, 1 ≤ j ∧ table[j - 1]? = some p ∧ (p < 1 ∨ bits.length < p) ∧
      (∀ q ∈ table.take (j - 1), 1 ≤ q ∧ q ≤ bits.length) ∧
      permuteSeq bits table = .error (.indexOutOfRange table j p)) ∧
  (∀ (bits : List Bool) (s : Nat), bits.length ≤ s →
    rotateLeftSeq bits s = .error (.rotateAmountOutOfRange s bits.length)) ∧
  (∀ a b : List Bool, a.length ≠ b.length → xorSeq a b = .error (.lengthMismatch .xor a.length b.length)) ∧
  (∀ bits : List Bool, bits.length % 8 ≠ 0 → ∃ e, bitsToBytesSeq bits = .error (.lengthMismatch .bitsToBytes e bits.length)) ∧
  (∀ r k : List Bool,
    (r.length ≠ 32 → applySeq r k = .error (.lengthMismatch .roundHalf 32 r.length)) ∧
    (r.length = 32 → k.length ≠ 48 → applySeq r k = .error (.lengthMismatch .roundKey 48 k.length))) ∧
  ∀ (bits : List Bool) (rk : Vector RoundKey 16) (dir : Dir), bits.length ≠ 64 →
    generateSeq bits = .error (.lengthMismatch .keyEntry 64 bits.length) ∧
    runSeq bits rk dir = .error (.lengthMismatch .cipherEntry 64 bits.length)
end

