-- ==== Sys2Proof/Laws/Ops.lean ====
section
/-! SUPPORT. What the shared operations do, once each: the bits of a permutation, the entries of a generated key file
and of a trace. -/

namespace Sys2Proof.Machine

/-- Sequence index i of a permuted block copies the position that entry i + 1 names (40_bit_primitives.md R130). -/
theorem getMsbD_permute {n m : Nat} (v : BitVec n) (T : Table n m) (i : Nat) :
    (permute v T).getMsbD i = if h : i < T.entries.length then bitAt v T.entries[i] else false := by
  rw [permute, BitVec.getMsbD_cast, BitVec.getMsbD_ofBoolListBE]
  split <;> simp_all

/-- Two permuted blocks are equal if the inputs agree on every position the table names. -/
theorem permute_congr {n m : Nat} {v w : BitVec n} {T : Table n m}
    (h : ∀ p ∈ T.entries, bitAt v p = bitAt w p) : permute v T = permute w T := by
  apply BitVec.eq_of_getMsbD_eq
  intro i _
  rw [getMsbD_permute, getMsbD_permute]
  split
  · exact h _ (List.getElem_mem _)
  · rfl

theorem getElem_generate (key : Block) (i : Nat) (h : i < 16) : (generate key)[i] = roundKey key (i + 1) := by
  simp [generate]

theorem keyAt_succ (rk : Vector RoundKey 16) (i : Nat) (h : i < 16) : keyAt rk (i + 1) = rk[i] := by
  simp [keyAt, Vector.getD, h]

theorem recordAt_succ (records : Vector RoundState 16) (i : Nat) (h : i < 16) :
    recordAt records (i + 1) = records[i] := by
  simp [recordAt, Vector.getD, h]

theorem getElem_run_trace (block : Block) (rk : Vector RoundKey 16) (dir : Dir) (i : Nat) (h : i < 16) :
    (run block rk dir).trace[i] =
      snapshot (i + 1) (halves block rk dir i) (keyFor rk dir (i + 1)) := by
  simp [run]

/-- A value of the S-box output in one lane depends on that lane's group alone (42_round_function.md R178). -/
theorem substitute_congr {x y : RoundKey} (h : ∀ i, 1 ≤ i → i ≤ 8 → group x i = group y i) :
    substitute x = substitute y := by
  simp only [substitute]
  rw [h 1, h 2, h 3, h 4, h 5, h 6, h 7, h 8] <;> decide

/-- The two key halves joined again are the PC1 output (30_encoding.md R105). -/
theorem keyHalves_join (cd : BitVec 56) : ((keyHalves cd).1 ++ (keyHalves cd).2 : BitVec 56) = cd := by
  apply BitVec.eq_of_getLsbD_eq
  intro i hi
  simp only [keyHalves, split, BitVec.getLsbD_append, BitVec.getLsbD_extractLsb']
  by_cases h : i < 28
  · simp [h]
  · simp [h, show i - 28 < 28 by omega, show 28 + (i - 28) = i by omega]

/-- The two half-blocks joined again are the IP output (30_encoding.md R106). -/
theorem halfBlocks_join (x : Block) : ((halfBlocks x).1 ++ (halfBlocks x).2 : Block) = x := by
  apply BitVec.eq_of_getLsbD_eq
  intro i hi
  simp only [halfBlocks, split, BitVec.getLsbD_append, BitVec.getLsbD_extractLsb']
  by_cases h : i < 32
  · simp [h]
  · simp [h, show i - 32 < 32 by omega, show 32 + (i - 32) = i by omega]

end Sys2Proof.Machine
end

