-- ==== Sys2Proof/Laws/PerInstr.lean ====
section
/-! SUPPORT. One statement per command: its word lies in its row of the opcode table (30_encoding.md R100 to R104). -/

namespace Sys2Proof.Laws.Row

/-- The mask of a command's row in spec/opcode_table.json. -/
def mask : Instr → CmdWord
  | .keygen _ => 0b011
  | .runEnc => 0b111
  | .runDec => 0b111
  | .decrypt _ => 0b011
  | .rsv _ => 0b011

/-- The match of a command's row in spec/opcode_table.json. -/
def pattern : Instr → CmdWord
  | .keygen _ => 0b000
  | .runEnc => 0b001
  | .runDec => 0b101
  | .decrypt _ => 0b010
  | .rsv _ => 0b011

def Statement (i : Instr) : Prop := i.wf = true ∧ encode i &&& mask i = pattern i

theorem keygen (dir : BitVec 1) : Statement (.keygen dir) := by
  simp only [Statement]
  revert dir
  decide

theorem runEnc : Statement .runEnc := ⟨rfl, rfl⟩

theorem runDec : Statement .runDec := ⟨rfl, rfl⟩

theorem decrypt (dir : BitVec 1) : Statement (.decrypt dir) := by
  simp only [Statement]
  revert dir
  decide

theorem rsv (dir : BitVec 1) : Statement (.rsv dir) := by
  simp only [Statement]
  revert dir
  decide

end Sys2Proof.Laws.Row
end

