-- ==== Sys2Proof/Laws/State.lean ====
section
/-! SUPPORT. One lemma per field per state update, true by rfl, so that no proof unfolds a record update. After a
protocol violation only the fault mark, the pending moves and the draw counter have lemmas: the rest are free values. -/

namespace Sys2Proof.Machine

@[simp] theorem State.capture_keyR (s : State) (key block : Block) (cmd : CmdWord) : (s.capture key block cmd).keyR = key := rfl
@[simp] theorem State.capture_blkR (s : State) (key block : Block) (cmd : CmdWord) : (s.capture key block cmd).blkR = block := rfl
@[simp] theorem State.capture_cmdR (s : State) (key block : Block) (cmd : CmdWord) : (s.capture key block cmd).cmdR = cmd := rfl
@[simp] theorem State.capture_rk (s : State) (key block : Block) (cmd : CmdWord) : (s.capture key block cmd).rk = s.rk := rfl
@[simp] theorem State.capture_outR (s : State) (key block : Block) (cmd : CmdWord) : (s.capture key block cmd).outR = s.outR := rfl
@[simp] theorem State.capture_trace (s : State) (key block : Block) (cmd : CmdWord) : (s.capture key block cmd).trace = s.trace := rfl
@[simp] theorem State.capture_busy (s : State) (key block : Block) (cmd : CmdWord) : (s.capture key block cmd).busy = true := rfl
@[simp] theorem State.capture_done (s : State) (key block : Block) (cmd : CmdWord) : (s.capture key block cmd).done = false := rfl
@[simp] theorem State.capture_err (s : State) (key block : Block) (cmd : CmdWord) : (s.capture key block cmd).err = errNone := rfl
@[simp] theorem State.capture_rkValid (s : State) (key block : Block) (cmd : CmdWord) : (s.capture key block cmd).rkValid = s.rkValid := rfl
@[simp] theorem State.capture_outValid (s : State) (key block : Block) (cmd : CmdWord) : (s.capture key block cmd).outValid = s.outValid := rfl
@[simp] theorem State.capture_traceValid (s : State) (key block : Block) (cmd : CmdWord) : (s.capture key block cmd).traceValid = s.traceValid := rfl
@[simp] theorem State.capture_fault (s : State) (key block : Block) (cmd : CmdWord) : (s.capture key block cmd).fault = s.fault := rfl
@[simp] theorem State.capture_inputs (s : State) (key block : Block) (cmd : CmdWord) : (s.capture key block cmd).inputs = s.inputs := rfl
@[simp] theorem State.capture_draws (s : State) (key block : Block) (cmd : CmdWord) : (s.capture key block cmd).draws = s.draws := rfl

@[simp] theorem State.complete_keyR (s : State) (code : BitVec 2) : (s.complete code).keyR = s.keyR := rfl
@[simp] theorem State.complete_blkR (s : State) (code : BitVec 2) : (s.complete code).blkR = s.blkR := rfl
@[simp] theorem State.complete_cmdR (s : State) (code : BitVec 2) : (s.complete code).cmdR = s.cmdR := rfl
@[simp] theorem State.complete_rk (s : State) (code : BitVec 2) : (s.complete code).rk = s.rk := rfl
@[simp] theorem State.complete_outR (s : State) (code : BitVec 2) : (s.complete code).outR = s.outR := rfl
@[simp] theorem State.complete_trace (s : State) (code : BitVec 2) : (s.complete code).trace = s.trace := rfl
@[simp] theorem State.complete_busy (s : State) (code : BitVec 2) : (s.complete code).busy = false := rfl
@[simp] theorem State.complete_done (s : State) (code : BitVec 2) : (s.complete code).done = true := rfl
@[simp] theorem State.complete_err (s : State) (code : BitVec 2) : (s.complete code).err = code := rfl
@[simp] theorem State.complete_rkValid (s : State) (code : BitVec 2) : (s.complete code).rkValid = s.rkValid := rfl
@[simp] theorem State.complete_outValid (s : State) (code : BitVec 2) : (s.complete code).outValid = s.outValid := rfl
@[simp] theorem State.complete_traceValid (s : State) (code : BitVec 2) : (s.complete code).traceValid = s.traceValid := rfl
@[simp] theorem State.complete_fault (s : State) (code : BitVec 2) : (s.complete code).fault = s.fault := rfl
@[simp] theorem State.complete_inputs (s : State) (code : BitVec 2) : (s.complete code).inputs = s.inputs := rfl
@[simp] theorem State.complete_draws (s : State) (code : BitVec 2) : (s.complete code).draws = s.draws := rfl

@[simp] theorem State.reportError_keyR (s : State) (code : BitVec 2) : (s.reportError code).keyR = s.keyR := rfl
@[simp] theorem State.reportError_blkR (s : State) (code : BitVec 2) : (s.reportError code).blkR = s.blkR := rfl
@[simp] theorem State.reportError_cmdR (s : State) (code : BitVec 2) : (s.reportError code).cmdR = s.cmdR := rfl
@[simp] theorem State.reportError_rk (s : State) (code : BitVec 2) : (s.reportError code).rk = s.rk := rfl
@[simp] theorem State.reportError_outR (s : State) (code : BitVec 2) : (s.reportError code).outR = s.outR := rfl
@[simp] theorem State.reportError_trace (s : State) (code : BitVec 2) : (s.reportError code).trace = s.trace := rfl
@[simp] theorem State.reportError_busy (s : State) (code : BitVec 2) : (s.reportError code).busy = false := rfl
@[simp] theorem State.reportError_done (s : State) (code : BitVec 2) : (s.reportError code).done = true := rfl
@[simp] theorem State.reportError_err (s : State) (code : BitVec 2) : (s.reportError code).err = code := rfl
@[simp] theorem State.reportError_rkValid (s : State) (code : BitVec 2) : (s.reportError code).rkValid = s.rkValid := rfl
@[simp] theorem State.reportError_outValid (s : State) (code : BitVec 2) : (s.reportError code).outValid = s.outValid := rfl
@[simp] theorem State.reportError_traceValid (s : State) (code : BitVec 2) : (s.reportError code).traceValid = s.traceValid := rfl
@[simp] theorem State.reportError_fault (s : State) (code : BitVec 2) : (s.reportError code).fault = s.fault := rfl
@[simp] theorem State.reportError_inputs (s : State) (code : BitVec 2) : (s.reportError code).inputs = s.inputs := rfl
@[simp] theorem State.reportError_draws (s : State) (code : BitVec 2) : (s.reportError code).draws = s.draws := rfl

@[simp] theorem State.writeKeys_keyR (s : State) (rk : Vector RoundKey 16) : (s.writeKeys rk).keyR = s.keyR := rfl
@[simp] theorem State.writeKeys_blkR (s : State) (rk : Vector RoundKey 16) : (s.writeKeys rk).blkR = s.blkR := rfl
@[simp] theorem State.writeKeys_cmdR (s : State) (rk : Vector RoundKey 16) : (s.writeKeys rk).cmdR = s.cmdR := rfl
@[simp] theorem State.writeKeys_rk (s : State) (rk : Vector RoundKey 16) : (s.writeKeys rk).rk = rk := rfl
@[simp] theorem State.writeKeys_outR (s : State) (rk : Vector RoundKey 16) : (s.writeKeys rk).outR = s.outR := rfl
@[simp] theorem State.writeKeys_trace (s : State) (rk : Vector RoundKey 16) : (s.writeKeys rk).trace = s.trace := rfl
@[simp] theorem State.writeKeys_busy (s : State) (rk : Vector RoundKey 16) : (s.writeKeys rk).busy = s.busy := rfl
@[simp] theorem State.writeKeys_done (s : State) (rk : Vector RoundKey 16) : (s.writeKeys rk).done = s.done := rfl
@[simp] theorem State.writeKeys_err (s : State) (rk : Vector RoundKey 16) : (s.writeKeys rk).err = s.err := rfl
@[simp] theorem State.writeKeys_rkValid (s : State) (rk : Vector RoundKey 16) : (s.writeKeys rk).rkValid = true := rfl
@[simp] theorem State.writeKeys_outValid (s : State) (rk : Vector RoundKey 16) : (s.writeKeys rk).outValid = s.outValid := rfl
@[simp] theorem State.writeKeys_traceValid (s : State) (rk : Vector RoundKey 16) : (s.writeKeys rk).traceValid = s.traceValid := rfl
@[simp] theorem State.writeKeys_fault (s : State) (rk : Vector RoundKey 16) : (s.writeKeys rk).fault = s.fault := rfl
@[simp] theorem State.writeKeys_inputs (s : State) (rk : Vector RoundKey 16) : (s.writeKeys rk).inputs = s.inputs := rfl
@[simp] theorem State.writeKeys_draws (s : State) (rk : Vector RoundKey 16) : (s.writeKeys rk).draws = s.draws := rfl

@[simp] theorem State.writeResult_keyR (s : State) (r : RunResult) : (s.writeResult r).keyR = s.keyR := rfl
@[simp] theorem State.writeResult_blkR (s : State) (r : RunResult) : (s.writeResult r).blkR = s.blkR := rfl
@[simp] theorem State.writeResult_cmdR (s : State) (r : RunResult) : (s.writeResult r).cmdR = s.cmdR := rfl
@[simp] theorem State.writeResult_rk (s : State) (r : RunResult) : (s.writeResult r).rk = s.rk := rfl
@[simp] theorem State.writeResult_outR (s : State) (r : RunResult) : (s.writeResult r).outR = r.output := rfl
@[simp] theorem State.writeResult_trace (s : State) (r : RunResult) : (s.writeResult r).trace = r.trace := rfl
@[simp] theorem State.writeResult_busy (s : State) (r : RunResult) : (s.writeResult r).busy = s.busy := rfl
@[simp] theorem State.writeResult_done (s : State) (r : RunResult) : (s.writeResult r).done = s.done := rfl
@[simp] theorem State.writeResult_err (s : State) (r : RunResult) : (s.writeResult r).err = s.err := rfl
@[simp] theorem State.writeResult_rkValid (s : State) (r : RunResult) : (s.writeResult r).rkValid = s.rkValid := rfl
@[simp] theorem State.writeResult_outValid (s : State) (r : RunResult) : (s.writeResult r).outValid = true := rfl
@[simp] theorem State.writeResult_traceValid (s : State) (r : RunResult) : (s.writeResult r).traceValid = true := rfl
@[simp] theorem State.writeResult_fault (s : State) (r : RunResult) : (s.writeResult r).fault = s.fault := rfl
@[simp] theorem State.writeResult_inputs (s : State) (r : RunResult) : (s.writeResult r).inputs = s.inputs := rfl
@[simp] theorem State.writeResult_draws (s : State) (r : RunResult) : (s.writeResult r).draws = s.draws := rfl

@[simp] theorem State.afterMove_keyR (s : State) : (s.afterMove).keyR = s.keyR := rfl
@[simp] theorem State.afterMove_blkR (s : State) : (s.afterMove).blkR = s.blkR := rfl
@[simp] theorem State.afterMove_cmdR (s : State) : (s.afterMove).cmdR = s.cmdR := rfl
@[simp] theorem State.afterMove_rk (s : State) : (s.afterMove).rk = s.rk := rfl
@[simp] theorem State.afterMove_outR (s : State) : (s.afterMove).outR = s.outR := rfl
@[simp] theorem State.afterMove_trace (s : State) : (s.afterMove).trace = s.trace := rfl
@[simp] theorem State.afterMove_busy (s : State) : (s.afterMove).busy = s.busy := rfl
@[simp] theorem State.afterMove_done (s : State) : (s.afterMove).done = s.done := rfl
@[simp] theorem State.afterMove_err (s : State) : (s.afterMove).err = s.err := rfl
@[simp] theorem State.afterMove_rkValid (s : State) : (s.afterMove).rkValid = s.rkValid := rfl
@[simp] theorem State.afterMove_outValid (s : State) : (s.afterMove).outValid = s.outValid := rfl
@[simp] theorem State.afterMove_traceValid (s : State) : (s.afterMove).traceValid = s.traceValid := rfl
@[simp] theorem State.afterMove_fault (s : State) : (s.afterMove).fault = s.fault := rfl
@[simp] theorem State.afterMove_inputs (s : State) : (s.afterMove).inputs = s.inputs.tail := rfl
@[simp] theorem State.afterMove_draws (s : State) : (s.afterMove).draws = s.draws := rfl

@[simp] theorem State.resetStep_keyR (s : State) : (s.resetStep).keyR = s.keyR := rfl
@[simp] theorem State.resetStep_blkR (s : State) : (s.resetStep).blkR = s.blkR := rfl
@[simp] theorem State.resetStep_cmdR (s : State) : (s.resetStep).cmdR = s.cmdR := rfl
@[simp] theorem State.resetStep_rk (s : State) : (s.resetStep).rk = s.rk := rfl
@[simp] theorem State.resetStep_outR (s : State) : (s.resetStep).outR = s.outR := rfl
@[simp] theorem State.resetStep_trace (s : State) : (s.resetStep).trace = s.trace := rfl
@[simp] theorem State.resetStep_busy (s : State) : (s.resetStep).busy = false := rfl
@[simp] theorem State.resetStep_done (s : State) : (s.resetStep).done = false := rfl
@[simp] theorem State.resetStep_err (s : State) : (s.resetStep).err = 0 := rfl
@[simp] theorem State.resetStep_rkValid (s : State) : (s.resetStep).rkValid = false := rfl
@[simp] theorem State.resetStep_outValid (s : State) : (s.resetStep).outValid = false := rfl
@[simp] theorem State.resetStep_traceValid (s : State) : (s.resetStep).traceValid = false := rfl
@[simp] theorem State.resetStep_fault (s : State) : (s.resetStep).fault = s.fault := rfl
@[simp] theorem State.resetStep_inputs (s : State) : (s.resetStep).inputs = s.inputs := rfl
@[simp] theorem State.resetStep_draws (s : State) : (s.resetStep).draws = s.draws := rfl

@[simp] theorem State.withCommand_keyR (s : State) (cmd : CmdWord) : (s.withCommand cmd).keyR = s.keyR := rfl
@[simp] theorem State.withCommand_blkR (s : State) (cmd : CmdWord) : (s.withCommand cmd).blkR = s.blkR := rfl
@[simp] theorem State.withCommand_cmdR (s : State) (cmd : CmdWord) : (s.withCommand cmd).cmdR = cmd := rfl
@[simp] theorem State.withCommand_rk (s : State) (cmd : CmdWord) : (s.withCommand cmd).rk = s.rk := rfl
@[simp] theorem State.withCommand_outR (s : State) (cmd : CmdWord) : (s.withCommand cmd).outR = s.outR := rfl
@[simp] theorem State.withCommand_trace (s : State) (cmd : CmdWord) : (s.withCommand cmd).trace = s.trace := rfl
@[simp] theorem State.withCommand_busy (s : State) (cmd : CmdWord) : (s.withCommand cmd).busy = true := rfl
@[simp] theorem State.withCommand_done (s : State) (cmd : CmdWord) : (s.withCommand cmd).done = s.done := rfl
@[simp] theorem State.withCommand_err (s : State) (cmd : CmdWord) : (s.withCommand cmd).err = s.err := rfl
@[simp] theorem State.withCommand_rkValid (s : State) (cmd : CmdWord) : (s.withCommand cmd).rkValid = s.rkValid := rfl
@[simp] theorem State.withCommand_outValid (s : State) (cmd : CmdWord) : (s.withCommand cmd).outValid = s.outValid := rfl
@[simp] theorem State.withCommand_traceValid (s : State) (cmd : CmdWord) : (s.withCommand cmd).traceValid = s.traceValid := rfl
@[simp] theorem State.withCommand_fault (s : State) (cmd : CmdWord) : (s.withCommand cmd).fault = none := rfl
@[simp] theorem State.withCommand_inputs (s : State) (cmd : CmdWord) : (s.withCommand cmd).inputs = .idle :: s.inputs := rfl
@[simp] theorem State.withCommand_draws (s : State) (cmd : CmdWord) : (s.withCommand cmd).draws = s.draws := rfl

@[simp] theorem State.raiseFault_fault (s : State) (f : Fault) (m : HostMove) : (s.raiseFault f m).fault = some f := rfl
@[simp] theorem State.raiseFault_inputs (s : State) (f : Fault) (m : HostMove) : (s.raiseFault f m).inputs = s.inputs := rfl
@[simp] theorem State.raiseFault_draws (s : State) (f : Fault) (m : HostMove) : (s.raiseFault f m).draws = s.draws + 1 := rfl

end Sys2Proof.Machine
end

