-- ==== Sys2Proof/Laws/Step.lean ====
section
/-! SUPPORT. Said once: everything a command, a turn and a step can answer. -/

namespace Sys2Proof.Machine

/-- Every command completes, in one of four ways (44_des_core.md R224). -/
theorem exec_cases (i : Instr) (s : State) :
    ((∃ d, i = .keygen d) ∧ exec i s = .next ((s.writeKeys (generate s.keyR)).complete errNone)) ∨
    (s.rkValid = true ∧ ∃ dir, ((i = .runEnc ∧ dir = .encrypt) ∨ (i = .runDec ∧ dir = .decrypt)) ∧
      exec i s = .next ((s.writeResult (run s.blkR s.rk dir)).complete errNone)) ∨
    ((∃ d, i = .decrypt d) ∧ exec i s = .next (((s.writeKeys (generate s.keyR)).writeResult
      (run s.blkR (generate s.keyR) .decrypt)).complete errNone)) ∨
    (s.rkValid = false ∧ (i = .runEnc ∨ i = .runDec) ∧ exec i s = .next (s.complete errNoKeys)) ∨
    ((∃ d, i = .rsv d) ∧ exec i s = .next (s.complete errIllegalOp)) := by
  cases i with
  | keygen d => exact .inl ⟨⟨d, rfl⟩, rfl⟩
  | runEnc =>
    cases h : s.rkValid with
    | true => exact .inr (.inl ⟨rfl, .encrypt, .inl ⟨rfl, rfl⟩, by simp [exec, execRunEnc, runCommand, h]⟩)
    | false =>
      exact .inr (.inr (.inr (.inl ⟨rfl, .inl rfl, by simp [exec, execRunEnc, runCommand, h, State.reportError]⟩)))
  | runDec =>
    cases h : s.rkValid with
    | true => exact .inr (.inl ⟨rfl, .decrypt, .inr ⟨rfl, rfl⟩, by simp [exec, execRunDec, runCommand, h]⟩)
    | false =>
      exact .inr (.inr (.inr (.inl ⟨rfl, .inr rfl, by simp [exec, execRunDec, runCommand, h, State.reportError]⟩)))
  | decrypt d => exact .inr (.inr (.inl ⟨⟨d, rfl⟩, rfl⟩))
  | rsv d => exact .inr (.inr (.inr (.inr ⟨⟨d, rfl⟩, rfl⟩)))

/-- A command answers a next state, never a fault or a refusal. -/
theorem exec_next (i : Instr) (s : State) : ∃ t, exec i s = .next t := by
  rcases exec_cases i s with ⟨-, h⟩ | ⟨-, d, -, h⟩ | ⟨-, h⟩ | ⟨-, -, h⟩ | ⟨-, h⟩ <;> exact ⟨_, h⟩

theorem coreTurn_fault {s : State} {f : Fault} (h : s.fault = some f) : coreTurn s = .fault f := by
  simp [coreTurn, h]

theorem coreTurn_busy {s : State} (hf : s.fault = none) (hb : s.busy = true) :
    coreTurn s = exec (decode s.cmdR) s := by
  simp [coreTurn, hf, hb, fetch]

theorem coreTurn_idle {s : State} (hf : s.fault = none) (hb : s.busy = false) : coreTurn s = .next s := by
  simp [coreTurn, hf, hb]

theorem hostStart_fault {s : State} {f : Fault} (h : s.fault = some f) (key block : Block) (cmd : CmdWord) :
    hostStart key block cmd s = .fault f := by
  simp [hostStart, h]

theorem hostStart_busy {s : State} (hf : s.fault = none) (hb : s.busy = true) (key block : Block) (cmd : CmdWord) :
    hostStart key block cmd s = .next (s.raiseFault .startWhileBusy (.start key block cmd)) := by
  simp [hostStart, hf, hb]

theorem hostStart_accept {s : State} (hf : s.fault = none) (hb : s.busy = false) (key block : Block) (cmd : CmdWord) :
    hostStart key block cmd s = .next (s.capture key block cmd) := by
  simp [hostStart, hf, hb]

/-- Everything a turn's next state can be (44_des_core.md R221 to R224): a completion, an idle turn, an accepted start,
a start while busy, or a reset. -/
theorem turn_cases {m : HostMove} {s t : State} (h : turn m s = .next t) :
    (s.fault = none ∧ s.busy = true ∧ m = .idle ∧ exec (decode s.cmdR) s = .next t) ∨
    (s.fault = none ∧ s.busy = false ∧ m = .idle ∧ t = s) ∨
    (s.fault = none ∧ s.busy = false ∧ ∃ key block cmd, m = .start key block cmd ∧ t = s.capture key block cmd) ∨
    (s.fault = none ∧ s.busy = true ∧ (∃ key block cmd, m = .start key block cmd) ∧
      t = s.raiseFault .startWhileBusy m) ∨
    (m = .reset ∧ t = s.resetStep) := by
  cases m with
  | reset => cases h; exact .inr (.inr (.inr (.inr ⟨rfl, rfl⟩)))
  | idle =>
    cases hf : s.fault with
    | some f => rw [turn, coreTurn_fault hf] at h; cases h
    | none =>
      cases hb : s.busy with
      | true => rw [turn, coreTurn_busy hf hb] at h; exact .inl ⟨rfl, rfl, rfl, h⟩
      | false => rw [turn, coreTurn_idle hf hb] at h; cases h; exact .inr (.inl ⟨rfl, rfl, rfl, rfl⟩)
  | start key block cmd =>
    cases hf : s.fault with
    | some f => rw [turn, hostStart_fault hf] at h; cases h
    | none =>
      cases hb : s.busy with
      | true =>
        rw [turn, hostStart_busy hf hb] at h
        cases h
        exact .inr (.inr (.inr (.inl ⟨rfl, rfl, ⟨key, block, cmd, rfl⟩, rfl⟩)))
      | false =>
        rw [turn, hostStart_accept hf hb] at h
        cases h
        exact .inr (.inr (.inl ⟨rfl, rfl, key, block, cmd, rfl, rfl⟩))

/-- A turn stops only where FAULT is set, and with that fault (60_exceptions.md R266). -/
theorem turn_stops {m : HostMove} {s : State} (h : ∀ t, turn m s ≠ .next t) :
    m ≠ .reset ∧ ∃ f, s.fault = some f ∧ turn m s = .fault f := by
  cases hf : s.fault with
  | some f =>
    cases m with
    | reset => exact absurd rfl (h _)
    | idle => exact ⟨by simp, f, rfl, coreTurn_fault hf⟩
    | start key block cmd => exact ⟨by simp, f, rfl, hostStart_fault hf key block cmd⟩
  | none =>
    cases m with
    | reset => exact absurd rfl (h _)
    | idle =>
      cases hb : s.busy with
      | true =>
        obtain ⟨t, ht⟩ := exec_next (decode s.cmdR) s
        exact absurd ((coreTurn_busy hf hb).trans ht) (h t)
      | false => exact absurd (coreTurn_idle hf hb) (h s)
    | start key block cmd =>
      cases hb : s.busy with
      | true => exact absurd (hostStart_busy hf hb key block cmd) (h _)
      | false => exact absurd (hostStart_accept hf hb key block cmd) (h _)

/-- A run takes a step that answers a next state and goes on from there. -/
theorem run_next {s t : State} (h : step s = .next t) (k : Nat) :
    Sys2Proof.core.run (k + 1) s = Sys2Proof.core.run k t := by
  have h' : Sys2Proof.core.step s = .next t := h
  simp only [Host.Core.run, h']

/-- A run stops at a fault. -/
theorem run_fault {s : State} {f : Fault} (h : step s = .fault f) (k : Nat) :
    Sys2Proof.core.run (k + 1) s = .fault f := by
  have h' : Sys2Proof.core.step s = .fault f := h
  simp only [Host.Core.run, h']

end Sys2Proof.Machine
end

