-- ==== Sys2Proof/Laws/Script.lean ====
section
/-! SUPPORT. What a script does, said once: a READ observes and changes nothing, and a script that ends without a fault ends
where its host moves lead. -/

namespace Sys2Proof.Machine

/-- A READ gets what its port shows in the state it is made in (30_encoding.md R114). -/
theorem runScript_read_shown (n : Nat) (key block : Block) (s : State) (p : ReadPort) (rest : List ScriptAction) :
    (runScript n key block s (.read p :: rest)).shown =
      readPort n p s :: (runScript (n + 1) key block s rest).shown := rfl

/-- A READ changes nothing that the rest of the script does (20_memory.md R78). -/
theorem runScript_read_ended (n : Nat) (key block : Block) (s : State) (p : ReadPort) (rest : List ScriptAction) :
    (runScript n key block s (.read p :: rest)).ended = (runScript (n + 1) key block s rest).ended := rfl

theorem runCommand_inputs {dir : Dir} {s t : State} (h : runCommand dir s = .next t) (l : List HostMove) :
    runCommand dir { s with inputs := l } = .next { t with inputs := l } := by
  simp only [runCommand] at h ⊢
  split at h <;> rename_i hv <;> cases h
  · exact (if_pos hv).trans rfl
  · exact (if_neg hv).trans rfl

/-- A command neither reads nor writes the host's coming moves. -/
theorem exec_inputs {i : Instr} {s t : State} (h : exec i s = .next t) (l : List HostMove) :
    exec i { s with inputs := l } = .next { t with inputs := l } := by
  cases i with
  | keygen d => cases h; rfl
  | decrypt d => cases h; rfl
  | rsv d => cases h; rfl
  | runEnc => exact runCommand_inputs h l
  | runDec => exact runCommand_inputs h l

/-- The same of a turn that leaves no fault. -/
theorem turn_inputs {m : HostMove} {s t : State} (h : turn m s = .next t) (hf : t.fault = none) (l : List HostMove) :
    turn m { s with inputs := l } = .next { t with inputs := l } := by
  rcases turn_cases h with ⟨hn, hb, rfl, he⟩ | ⟨hn, hb, rfl, rfl⟩ | ⟨hn, hb, key, block, cmd, rfl, rfl⟩ |
    ⟨-, -, -, rfl⟩ | ⟨rfl, rfl⟩
  · exact (coreTurn_busy (s := { s with inputs := l }) hn hb).trans (exec_inputs he l)
  · exact coreTurn_idle (s := { t with inputs := l }) hn hb
  · exact hostStart_accept (s := { s with inputs := l }) hn hb key block cmd
  · simp at hf
  · rfl

/-- A fault once set stays set (60_exceptions.md R266). -/
theorem turn_keeps_fault {m : HostMove} {s t : State} (h : turn m s = .next t) (hf : s.fault ≠ none) :
    t.fault ≠ none := by
  rcases turn_cases h with ⟨hn, -⟩ | ⟨hn, -⟩ | ⟨hn, -⟩ | ⟨hn, -⟩ | ⟨-, rfl⟩
  all_goals first | exact absurd hn hf | exact hf

/-- A script goes on after a turn only from that turn's next state. -/
theorem scriptTurn_ended {o : Host.Outcome State Fault Refusal} {rest : State → ScriptRun} {t : State}
    (h : (scriptTurn o rest).ended = .next t) : ∃ u, o = .next u ∧ (rest u).ended = .next t := by
  cases o with
  | next u => exact ⟨u, rfl, h⟩
  | fault f => cases h
  | refused r => cases h

/-- A script that starts in a state with a fault, and gets through, ends in one. -/
theorem runScript_keeps_fault (acts : List ScriptAction) : ∀ {n : Nat} {key block : Block} {s t : State},
    (runScript n key block s acts).ended = .next t → s.fault ≠ none → t.fault ≠ none := by
  induction acts with
  | nil => intro n key block s t h hf; cases h; exact hf
  | cons a rest ih =>
    intro n key block s t h hf
    cases a with
    | set k b => exact ih h hf
    | read p => exact ih h hf
    | start m => obtain ⟨u, hm, hu⟩ := scriptTurn_ended h; exact ih hu (turn_keeps_fault hm hf)
    | wait => obtain ⟨u, hm, hu⟩ := scriptTurn_ended h; exact ih hu (turn_keeps_fault hm hf)
    | reset => obtain ⟨u, hm, hu⟩ := scriptTurn_ended h; exact ih hu (turn_keeps_fault hm hf)

/-- A step that takes move `m` off the list is the turn of `m`. -/
theorem step_cons {m : HostMove} {s t : State} (h : turn m s = .next t) (hf : t.fault = none) (l : List HostMove) :
    step { s with inputs := m :: l } = .next { t with inputs := l } := turn_inputs h hf l

/-- A script that ends without a fault ends where the machine's steps end on its host moves. -/
theorem runScript_ended (acts : List ScriptAction) : ∀ {n : Nat} {key block : Block} {s t : State},
    (runScript n key block s acts).ended = .next t → t.fault = none →
    Sys2Proof.core.run (scriptMoves key block acts).length { s with inputs := scriptMoves key block acts } =
      .next { t with inputs := [] } := by
  induction acts with
  | nil => intro n key block s t h _; cases h; rfl
  | cons a rest ih =>
    intro n key block s t h hf
    have go : ∀ {m : HostMove} {u : State}, turn m s = .next u → (runScript n key block u rest).ended = .next t →
        Sys2Proof.core.run ((scriptMoves key block rest).length + 1)
          { s with inputs := m :: scriptMoves key block rest } = .next { t with inputs := [] } := by
      intro m u hm hu
      have hn : u.fault = none := by
        by_contra hn
        exact runScript_keeps_fault rest hu hn hf
      exact (run_next (step_cons hm hn _) _).trans (ih hu hf)
    cases a with
    | set k b => exact ih h hf
    | read p => exact ih h hf
    | start m => obtain ⟨u, hm, hu⟩ := scriptTurn_ended h; exact go hm hu
    | wait => obtain ⟨u, hm, hu⟩ := scriptTurn_ended h; exact go hm hu
    | reset => obtain ⟨u, hm, hu⟩ := scriptTurn_ended h; exact go hm hu

end Sys2Proof.Machine
end

