-- ==== Sys2Proof/Laws/Tables.lean ====
section
/-! SUPPORT. The properties of the constants (20_memory.md R75), each proved by evaluation, as R75 asks; a failure would mean
a mistyped table. -/

namespace Sys2Proof.Machine

/-- R75 item 1. -/
theorem rom_inRange : ROM.inRange := by decide

/-- R75 item 2. -/
theorem rom_ipFpInverse : ROM.ipFpInverse := by decide

/-- R75 item 3. -/
theorem rom_pc1Selects : ROM.pc1Selects := by decide

/-- R75 item 4. -/
theorem rom_pc2Selects : ROM.pc2Selects := by decide

/-- R75 item 5. -/
theorem rom_eRepeats : ROM.eRepeats := by decide

/-- R75 item 6. -/
theorem rom_pBijective : ROM.pBijective := by decide

/-- R75 item 7. -/
theorem rom_shiftsSum : ROM.shiftsSum := by decide

/-- R75 item 8. -/
theorem rom_sboxRowsBijective : ROM.sboxRowsBijective := by decide

/-- R75 item 9. -/
theorem rom_s1Cell : ROM.s1Cell := by decide

/-- R75, all nine items. -/
theorem rom_properties : ROM.properties :=
  ⟨rom_inRange, rom_ipFpInverse, rom_pc1Selects, rom_pc2Selects, rom_eRepeats, rom_pBijective, rom_shiftsSum,
    rom_sboxRowsBijective, rom_s1Cell⟩

/-- R75 item 2 and 90_conflicts.md C5: IP is the inverse of FP, not of itself. -/
theorem ip_not_its_own_inverse : ∃ x : Block, permute (permute x ROM.IP) ROM.IP ≠ x :=
  ⟨0x0123456789ABCDEF, by decide +kernel⟩

end Sys2Proof.Machine
end

