-- ==== Sys2Proof/Tests/Slice0.lean ====
section
/-! SUPPORT. The model's own tests, with expected values from 95_test_vectors.md, and a witness for the hypotheses of
every obligation that has any. -/

namespace Sys2Proof.Machine.Tests

/-! ## Helpers -/

/-- The next state of an outcome, and the reset state where there is none. -/
def after (o : Host.Outcome State Fault Refusal) : State :=
  match o with
  | .next s => s
  | _ => State.reset

/-- The same for the clocked machine. -/
def afterEdges (o : Host.Outcome Clocked Fault Refusal) : Clocked :=
  match o with
  | .next c => c
  | _ => Clocked.reset

/-- Right after reset, with the host's moves given. -/
def moved (moves : List HostMove) : State := { State.reset with inputs := moves }

/-- A command in flight: the captured key, block and word. -/
def inFlight (key block : Block) (cmd : CmdWord) : State := State.reset.capture key block cmd

/-- A command in flight with a key schedule in RK. -/
def keyed (key block : Block) (cmd : CmdWord) : State := (State.reset.writeKeys (generate key)).capture key block cmd

/-- Results on the ports, as after a run. -/
def valid : State := (State.reset.writeKeys (generate 0)).writeResult (run 0 (generate 0) .encrypt)

/-- A start that came while a command was in flight. -/
def faulted : State := (inFlight 0 0 0).raiseFault .startWhileBusy (.start 0 0 0)

/-- An edge with no request. -/
def quietEdge : PortsIn := { rst := false, start := false, cmd := 0, key := 0, block := 0, rkSel := 0, traceSel := 0 }

/-- An edge with a start request. -/
def startEdge (key block : Block) (cmd : CmdWord) : PortsIn :=
  { quietEdge with start := true, cmd := cmd, key := key, block := block }

/-- The timeline of 95_test_vectors.md section 7.2: a latency of 3 for every command. -/
def timing3 : Timing where
  latKeygen _ _ _ := 3
  latRun _ _ _ := 3
  latDecrypt _ _ _ := 3
  latReserved _ _ _ := 3
  implStyle := .iterative

/-! ## Well-formedness: an ill-formed term for each check -/

theorem test_table_entry_zero_refused : tableOk 64 2 [1, 0] = false := by decide
theorem test_table_entry_above_refused : tableOk 64 2 [1, 65] = false := by decide
theorem test_table_length_refused : tableOk 64 2 [1] = false := by decide
theorem test_shift_amount_refused : shiftsOk (List.replicate 15 1 ++ [3]) = false := by decide
theorem test_shift_length_refused : shiftsOk (List.replicate 15 1) = false := by decide
theorem test_sbox_entry_refused : sboxOk (List.replicate 4 (List.replicate 15 0 ++ [16])) = false := by decide
theorem test_sbox_row_length_refused : sboxOk (List.replicate 4 (List.replicate 15 0)) = false := by decide
theorem test_sbox_rows_refused : sboxOk (List.replicate 3 (List.replicate 16 0)) = false := by decide
theorem test_timing_zero_refused : ¬ ({ timing3 with latRun := fun _ _ _ => 0 } : Timing).wf :=
  fun h => by have := (h 0 0 default).2.1; simp at this
theorem test_instr_wf : Instr.wf (.rsv 1) = true := by decide

/-! ## Decoding: words written out from 30_encoding.md R100 -/

theorem test_decode_keygen_000 : decode 0b000#3 = .keygen 0 := by decide
theorem test_decode_keygen_100 : decode 0b100#3 = .keygen 1 := by decide
theorem test_decode_runEnc_001 : decode 0b001#3 = .runEnc := by decide
theorem test_decode_runDec_101 : decode 0b101#3 = .runDec := by decide
theorem test_decode_decrypt_010 : decode 0b010#3 = .decrypt 0 := by decide
theorem test_decode_decrypt_110 : decode 0b110#3 = .decrypt 1 := by decide
theorem test_decode_rsv3_011 : decode 0b011#3 = .rsv 0 := by decide
theorem test_decode_rsv7_111 : decode 0b111#3 = .rsv 1 := by decide
theorem test_decodeTableWord : decodeTableWord 8 5 = some .runDec := by decide

/-! ## Primitives: 95_test_vectors.md section 6 -/

theorem test_permute_IP : permute 0x0123456789ABCDEF ROM.IP = 0xCC00CCFFF0AAF0AA := by decide +kernel
theorem test_permute_FP : permute 0x0123456789ABCDEF ROM.FP = 0xFF330FAA00330FAA := by decide +kernel
theorem test_permute_IP_twice : permute (permute 0x0123456789ABCDEF ROM.IP) ROM.IP = 0x5D580D08FDF8ADA8 := by
  decide +kernel
theorem test_permute_PC1 : permute 0x133457799BBCDFF1 ROM.PC1 = 0xF0CCAAF556678F := by decide +kernel
theorem test_permute_PC2 : permute 0x80000000000000 ROM.PC2 = 0x080000000000 := by decide +kernel
theorem test_permute_E : permute 0x80000000 ROM.E = 0x400000000001 := by decide +kernel
theorem test_permute_P : permute 0x80000000 ROM.P = 0x00800000 := by decide +kernel
theorem test_rotl_wraps : rotl 0xC000000#28 2 = 0x0000003#28 := by decide
theorem test_split : split (n := 32) 0xCC00CCFFF0AAF0AA#64 = (0xCC00CCFF, 0xF0AAF0AA) := by decide
theorem test_bitsToBytes : bitsToBytes (n := 8) 0x554E444952495348#64 =
    [0x55, 0x4E, 0x44, 0x49, 0x52, 0x49, 0x53, 0x48] := by decide

/-! ## Sub-blocks: sections 3, 4 and 5 -/

theorem test_schedule_round_1 : scheduleHalves 0x133457799BBCDFF1 1 = (0xE19955F, 0xAACCF1E) := by decide +kernel
theorem test_schedule_fifteen_distinct : ((generate 0x8000000000000000)[7], (generate 0x8000000000000000)[14]) = (0, 0) := by
  decide +kernel
theorem test_sbox_corners : [1, 2, 3, 4, 5, 6, 7, 8].map (fun i => (lane i 0, lane i 63, lane i 33, lane i 30)) =
    [(14, 13, 15, 7), (15, 9, 13, 10), (10, 12, 1, 8), (7, 14, 3, 15), (2, 3, 11, 9), (12, 13, 4, 11), (4, 12, 6, 1),
      (13, 11, 2, 7)] := by decide +kernel
theorem test_substitute_one_lane : substitute 0x840000000000 = 0xFFA72C4D := by decide +kernel
theorem test_apply_round_1 : apply 0xF0AAF0AA 0x1B02EFFC7072 =
    { fOut := 0x234AA9BB, expanded := 0x7A15557A1555, xored := 0x6117BA866527, sboxOut := 0x5C82B597 } := by
  decide +kernel
theorem test_pack_round_1 : packTrace (run 0xCAEDA2655FB73873 (generate 0x4C4F564543534E44) .decrypt).trace[0] =
    0x01A0922AF288B19BF03ABA27EE53B590FF5C2A7DAA306D76D8F51BBEEE559E6ACF337F27EE53B5F13F09C5 := by decide +kernel

/-! ## Commands: sections 2, 5 and 7.1 -/

theorem test_keygen_keys : (fun s : State => (s.rk[0], s.rk[15], statusWord s))
    (after (step (inFlight 0x4C4F564543534E44 0 0b000))) = (0xA092C2B3E0DE, 0xA0922AF288B1, 0x12) := by decide +kernel
theorem test_keygen_keeps_output : (after (exec (.keygen 1) (valid.capture 0x0101010101010101 0 0b100))).outR =
    0x8CA64DE9C1B123A7 := by decide +kernel
theorem test_runEnc_output : (fun s : State => (s.outR, s.trace[15].lOut, s.trace[15].rOut, statusWord s))
    (after (step (keyed 0x133457799BBCDFF1 0x0123456789ABCDEF 0b001))) =
      (0x85E813540F0AB405, 0x43423234, 0x0A4CD995, 0x72) := by decide +kernel
theorem test_runEnc_no_keys : statusWord (after (step (inFlight 0 0 0b001))) = 0x0A := by decide +kernel
theorem test_runDec_output : (fun s : State => (s.outR, s.trace[15].lOut, s.trace[15].rOut))
    (after (step (keyed 0x133457799BBCDFF1 0x85E813540F0AB405 0b101))) =
      (0x0123456789ABCDEF, 0xF0AAF0AA, 0xCC00CCFF) := by decide +kernel
theorem test_runDec_no_keys : statusWord (after (step (inFlight 0 0 0b101))) = 0x0A := by decide +kernel
theorem test_decrypt_known_answer : (fun s : State => (s.outR, s.rk[0], s.rk[15], statusWord s))
    (after (step (inFlight 0x4C4F564543534E44 0xCAEDA2655FB73873 0b010))) =
      (0x554E444952495348, 0xA092C2B3E0DE, 0xA0922AF288B1, 0x72) := by decide +kernel
theorem test_decrypt_ignores_dir : (after (step (inFlight 0x133457799BBCDFF1 0x0123456789ABCDEF 0b110))).outR =
    0xEE0F7C12E0B09338 := by decide +kernel
theorem test_rsv3_status : statusWord (after (step (inFlight 0 0 0b011))) = 0x06 := by decide +kernel
theorem test_rsv7_status : statusWord (after (step (valid.capture 0 0 0b111))) = 0x76 := by decide +kernel

/-! ## Steps, ports, the clocked view and scripts -/

theorem test_start_status : statusWord (after (step { valid with inputs := [.start 0 0 0] })) = 0x71 := by decide +kernel
theorem test_start_while_busy_faults :
    (after (step { inFlight 0 0 0 with inputs := [.start 0 0 0] })).fault = some .startWhileBusy := by decide
theorem test_reset_aborts : statusWord (after (step { inFlight 0 0 0b010 with inputs := [.reset] })) = 0x00 := by decide
theorem test_placed_word_steps : statusWord (after (step (State.reset.withFetchWord 8 3))) = 0x06 := by decide
theorem test_clock_before_completion : statusWord (afterEdges (clockEdges timing3
    [startEdge 0 0 0b011, quietEdge, quietEdge] Clocked.reset)).core = 0x01 := by decide
theorem test_clock_completion : statusWord (afterEdges (clockEdges timing3
    [startEdge 0 0 0b011, quietEdge, quietEdge, quietEdge] Clocked.reset)).core = 0x06 := by decide
theorem test_clock_start_at_completing_edge : (afterEdges (clockEdges timing3
    [startEdge 0 0 0b011, quietEdge, quietEdge, startEdge 0 0 0] Clocked.reset)).core.fault =
      some .startWhileBusy := by decide
theorem test_script_encrypt : scriptMoves 0 0 (encryptScript 1 2) =
    [.start 1 2 0b000, .idle, .start 1 2 0b001, .idle] := by decide
/-- Program 2 of 95_test_vectors.md section 7, to its second READ block. -/
theorem test_script_reads : (runScript 0 0 0 State.reset
    [.reset, .set (some 0x133457799BBCDFF1) (some 0x0123456789ABCDEF), .start .keygen, .wait, .read .status, .read (.rk 0),
      .start .runEnc, .wait, .read .status, .read .block, .set none (some 0x85E813540F0AB405), .start .runDec, .wait,
      .read .block]).shown =
    [.status 0x12, .rk 0x1B02EFFC7072, .status 0x72, .block 0x85E813540F0AB405, .block 0x0123456789ABCDEF] := by
  decide +kernel
/-- Program 5 of section 7: the reset before completion leaves no keys. -/
theorem test_script_abort : (runScript 0 0 0 State.reset
    [.reset, .set (some 0x4C4F564543534E44) (some 0xCAEDA2655FB73873), .start .decrypt, .reset, .read .status,
      .start .runEnc, .wait, .read .status]).shown = [.status 0x00, .status 0x0A] := by decide +kernel
theorem test_seq_undersized_block : permuteSeq [true, false] [1, 3] = .error (.indexOutOfRange [1, 3] 2 3) := by decide

/-! ## Witnesses for the hypotheses of the obligations -/

theorem witness_DecodeEncodeAgree : Instr.wf (.decrypt 1) = true := by decide

theorem witness_PrimitiveLaws : 47 < 48 ∧ 27 < 28 ∧ 2 < 28 ∧ 0 < 28 := by decide

theorem witness_PermuteCornerCases : 7 < 64 ∧ 7 + 1 ∉ ROM.PC1.entries ∧ 63 < 64 ∧ 63 + 1 ∉ ROM.PC1.entries := by decide

theorem witness_RotationMeaning : 0 < 28 ∧ 27 < 28 := by decide

theorem witness_BytesAreBigEndian : 7 < 8 ∧ 0 < 8 := by decide

theorem witness_ScheduleIsMonotonic : 16 ≤ 16 ∧ 1 ≤ 16 ∧ 0 ≤ 16 ∧ 1 ≤ 1 := by decide

theorem witness_RoundKeyLaws :
    ((keyHalves (permute 0x1F1F1F1F0E0E0E0E ROM.PC1)).1 = 0#28 ∧
      (keyHalves (permute 0x1F1F1F1F0E0E0E0E ROM.PC1)).2 = BitVec.allOnes 28) ∧
    ((keyHalves (permute 0xE0E0E0E0F1F1F1F1 ROM.PC1)).1 = BitVec.allOnes 28 ∧
      (keyHalves (permute 0xE0E0E0E0F1F1F1F1 ROM.PC1)).2 = 0#28) := by decide +kernel

theorem witness_ParityPositionsDoNotMatter :
    (∀ p, 1 ≤ p → p ≤ 64 → p % 8 ≠ 0 → bitAt 0x0101010101010101#64 p = bitAt 0x0000000000000000#64 p) ∧
    ∃ t, exec (.keygen 0) { State.reset with keyR := 0x0101010101010101 } = .next t := by
  refine ⟨?_, exec_next _ _⟩
  have h : ∀ p < 65, 1 ≤ p → p ≤ 64 → p % 8 ≠ 0 → bitAt 0x0101010101010101#64 p = bitAt 0x0000000000000000#64 p := by
    decide +kernel
  exact fun p h1 h2 h3 => h p (by omega) h1 h2 h3

theorem witness_SboxOperand : 1 ≤ 1 ∧ 1 ≤ 8 ∧ 8 ≤ 8 ∧ 5 < 6 := by decide

theorem witness_SboxOutputAssembly : (substitute 0x840000000000).extractLsb' (32 - 4 * 1) 4 = 15 ∧
    (substitute 0x840000000000).extractLsb' (32 - 4 * 8) 4 = 13 := by decide +kernel

theorem witness_SboxLanesAreIndependent : (∀ j < 6, (0x840000000000#48).getMsbD (6 * (8 - 1) + j) =
    (0x000000000000#48).getMsbD (6 * (8 - 1) + j)) ∧
    ∀ j < 6, (0x000000000001#48).getMsbD (6 * (1 - 1) + j) = (0x000000000000#48).getMsbD (6 * (1 - 1) + j) := by
  decide +kernel

theorem witness_RoundFunctionLaws :
    permute 0xFFFFFFFF ROM.E ^^^ 0xFFFFFFFFFFFF#48 = permute 0x00000000 ROM.E ^^^ 0x000000000000#48 := by decide +kernel

theorem witness_RoundSnapshot : ∃ t, t = (run 0 (generate 0) .decrypt).trace[15] := ⟨_, rfl⟩

theorem witness_TraceChains : (∃ out, out = run 0 (generate 0) .encrypt) ∧ (14 : Nat) + 1 < 16 ∧ (0 : Nat) + 1 < 16 :=
  ⟨⟨_, rfl⟩, by decide, by decide⟩

theorem witness_RoundStatesCorrespond : (∃ c, c = (run 0 (generate 0) .encrypt).output) ∧ 16 ≤ 16 ∧ 0 ≤ 16 :=
  ⟨⟨_, rfl⟩, by decide, by decide⟩

theorem witness_DirectionSymmetricKeys :
    (∀ i : Fin 16, (generate 0x0101010101010101)[i] = (generate 0x0101010101010101)[15 - i.val]) ∧
    ∀ i : Fin 16, (generate 0xFE01FE01FE01FE01)[i] = (generate 0x01FE01FE01FE01FE)[15 - i.val] := by decide +kernel

theorem witness_RunCompletes : (keyed 0 0 0b001).rkValid = true ∧ (inFlight 0 0 0b001).rkValid = false := by decide

theorem witness_CommandFrames : ∃ t, exec (.rsv 0) State.reset = .next t := ⟨_, rfl⟩

theorem witness_ErrorCodes : (∃ t, exec (.rsv 1) State.reset = .next t ∧ t.err = 0b01) ∧
    (∃ t, exec .runEnc State.reset = .next t ∧ t.err = 0b10) := ⟨⟨_, rfl, rfl⟩, ⟨_, rfl, rfl⟩⟩

theorem witness_ErrorsArePrecise : ∃ t, exec .runDec State.reset = .next t ∧ t.err ≠ 0b00 :=
  ⟨_, rfl, by decide⟩

theorem witness_ResultsArePure :
    (∃ s' t', exec (.keygen 0) (inFlight 1 2 0) = .next s' ∧ exec (.keygen 0) (keyed 1 2 0) = .next t' ∧
      (inFlight 1 2 0).keyR = (keyed 1 2 0).keyR ∧ (inFlight 1 2 0).blkR = (keyed 1 2 0).blkR) ∧
    (∃ s' t', exec .runEnc (keyed 1 2 0) = .next s' ∧ exec .runEnc { keyed 1 2 0 with outR := 3 } = .next t' ∧
      (keyed 1 2 0).rkValid = true) := by
  refine ⟨?_, ?_⟩
  · obtain ⟨s', hs⟩ := exec_next (.keygen 0) (inFlight 1 2 0)
    obtain ⟨t', ht⟩ := exec_next (.keygen 0) (keyed 1 2 0)
    exact ⟨s', t', hs, ht, by simp [inFlight, keyed], by simp [inFlight, keyed]⟩
  · obtain ⟨s', hs⟩ := exec_next .runEnc (keyed 1 2 0)
    obtain ⟨t', ht⟩ := exec_next .runEnc { keyed 1 2 0 with outR := 3 }
    exact ⟨s', t', hs, ht, rfl⟩

theorem witness_StepPerformsCommand : (inFlight 0 0 0b010).fault = none ∧ (inFlight 0 0 0b010).busy = true ∧
    nextMove (inFlight 0 0 0b010) = .idle := ⟨rfl, rfl, rfl⟩

theorem witness_IdleHolds : State.reset.fault = none ∧ State.reset.busy = false ∧ nextMove State.reset = .idle ∧
    State.reset.inputs = [] := by decide

theorem witness_StartIsAccepted : (moved [.start 1 2 3]).fault = none ∧ (moved [.start 1 2 3]).busy = false ∧
    nextMove (moved [.start 1 2 3]) = .start 1 2 3 ∧ nextMove (inFlight 1 2 3) = .idle := by decide

theorem witness_StartWhileBusyFaults : { inFlight 0 0 0 with inputs := [.start 1 2 3] }.fault = none ∧
    { inFlight 0 0 0 with inputs := [.start 1 2 3] }.busy = true ∧
    nextMove { inFlight 0 0 0 with inputs := [.start 1 2 3] } = .start 1 2 3 := by decide

theorem witness_FaultIsFinal : faulted.fault = some .startWhileBusy ∧ nextMove faulted ≠ .reset ∧
    ∃ t, step { faulted with inputs := [.reset] } = .next t := ⟨rfl, by decide, _, rfl⟩

theorem witness_ResetAbandonsCommand : nextMove { inFlight 0 0 0b010 with inputs := [.reset] } = .reset ∧
    { inFlight 0 0 0b010 with inputs := [.reset] }.fault = none := by decide

theorem witness_EveryWriteHasItsCause : ∃ t, step (moved [.start 1 2 3]) = .next t ∧ t.fault = none ∧
    t.keyR ≠ (moved [.start 1 2 3]).keyR := ⟨_, rfl, rfl, by decide⟩

theorem witness_EveryWriteHasItsCause_completion : (fun t : State => (decide (t.rk ≠ State.reset.rk),
    decide (t.rkValid ≠ State.reset.rkValid), decide (t.outR ≠ State.reset.outR),
    decide (t.outValid ≠ State.reset.outValid), t.fault))
      (after (step (inFlight 0x4C4F564543534E44 0 0b010))) = (true, true, true, true, none) := by decide +kernel

theorem witness_EveryWriteHasItsCause_reset : (fun s : State => (fun t : State => (decide (t.rkValid ≠ s.rkValid),
    decide (t.outValid ≠ s.outValid), decide (t.done ≠ s.done), t.fault)) (after (step s)))
      { valid.complete errNone with inputs := [.reset] } = (true, true, true, none) := by decide +kernel

theorem witness_StepKeepsInv : Inv (moved [.start 1 2 0b010]) ∧ ∃ t, step (moved [.start 1 2 0b010]) = .next t :=
  ⟨by intro _; simp [moved, State.reset], _, rfl⟩

theorem witness_SameStates : Same State.reset { State.reset with keyR := 1, outR := 2 } :=
  ⟨rfl, rfl, rfl, fun _ => by simp [State.reset]⟩

theorem witness_SameStatesShowSame : Same valid { valid with keyR := 1 } ∧ valid.fault = none ∧
    shows valid valid.outValid = true ∧ shows valid valid.rkValid = true ∧ shows valid valid.traceValid = true :=
  ⟨⟨rfl, rfl, rfl, fun _ => by simp [valid, State.reset]⟩, rfl, rfl, rfl, rfl⟩

theorem witness_CaptureRegistersAreHidden : (∃ t, t = { valid with keyR := 1, blkR := 2, cmdR := 3 }) ∧
    valid.fault = none ∧ shows valid valid.outValid = true ∧ shows valid valid.rkValid = true ∧
    shows valid valid.traceValid = true := ⟨⟨_, rfl⟩, rfl, rfl, rfl, rfl⟩

theorem witness_ResetForgets : (inFlight 1 2 3).fault = (inFlight 4 5 6).fault ∧
    (inFlight 1 2 3).inputs = (inFlight 4 5 6).inputs ∧ (inFlight 1 2 3).draws = (inFlight 4 5 6).draws := by decide

theorem witness_ObedientHostNeverFaults :
    (moved [.start 0 0 0, .idle, .start 0 0 3, .reset, .start 0 0 1]).fault = none ∧
    obeys (moved [.start 0 0 0, .idle, .start 0 0 3, .reset, .start 0 0 1]).busy
      (moved [.start 0 0 0, .idle, .start 0 0 3, .reset, .start 0 0 1]).inputs = true := by decide

theorem witness_disobedient : obeys false [.start 0 0 0, .start 0 0 0] = false := by decide

theorem witness_StatusWordFields : valid.fault = none ∧ (inFlight 0 0 0).fault = none := by decide

theorem witness_DataPortsAreGated : (valid.fault = none ∧ valid.busy = false ∧ valid.outValid = true ∧
    valid.rkValid = true ∧ valid.traceValid = true) ∧ faulted.fault ≠ none ∧ (inFlight 0 0 0).busy = true ∧
    State.reset.outValid = false ∧ State.reset.rkValid = false ∧ State.reset.traceValid = false := by decide

theorem witness_TracePortLayout : (∃ w, w = traceO 0 (BitVec.ofNat 4 15) valid) ∧ (∃ t, t = valid.trace[15]) ∧
    valid.fault = none ∧ valid.busy = false ∧ valid.traceValid = true := ⟨⟨_, rfl⟩, ⟨_, rfl⟩, by decide⟩

theorem witness_PortsWhileBusy : { valid with inputs := [.start 1 2 3] }.fault = none ∧
    { valid with inputs := [.start 1 2 3] }.busy = false ∧
    nextMove { valid with inputs := [.start 1 2 3] } = .start 1 2 3 := by decide

theorem witness_DecryptTopLevel : (moved [.start 1 2 0b010, .idle]).fault = none ∧
    (moved [.start 1 2 0b010, .idle]).busy = false ∧
    (moved [.start 1 2 0b010, .idle]).inputs = [.start 1 2 0b010, .idle] := by decide

theorem witness_StaleResults : { valid with inputs := [.start 1 2 0b000, .idle] }.fault = none ∧
    { valid with inputs := [.start 1 2 0b000, .idle] }.busy = false ∧
    { valid with inputs := [.start 1 2 0b000, .idle] }.outValid = true ∧
    { valid with inputs := [.start 1 2 0b000, .idle] }.traceValid = true ∧
    ∃ t, exec (.decrypt 0) State.reset = .next t := ⟨rfl, rfl, rfl, rfl, exec_next _ _⟩

theorem witness_CommandSequences : State.reset.fault = none ∧ State.reset.busy = false := by decide

theorem witness_ClockProtocol : timing3.wf ∧ { quietEdge with rst := true, start := true }.rst = true ∧
    ((startEdge 0 0 3).rst = false ∧ (startEdge 0 0 3).start = true ∧ Clocked.reset.core.fault = none ∧
      Clocked.reset.core.busy = false ∧ (inFlight 0 0 0).busy = true ∧ (inFlight 0 0 0).fault = none) ∧
    (∀ q ∈ [quietEdge, quietEdge, quietEdge], q.rst = false ∧ q.start = false) ∧
    [quietEdge, quietEdge].length < latencyOf timing3 (.rsv 0) 0 0 default ∧
    [quietEdge, quietEdge, quietEdge].length = latencyOf timing3 (.rsv 0) 0 0 default :=
  ⟨fun _ _ _ => by simp [timing3], rfl, by decide, by decide, by decide, rfl⟩

theorem witness_ClockRefinesSteps : ∃ d, clockEdges timing3 [startEdge 0 0 3, quietEdge] Clocked.reset = .next d :=
  ⟨_, rfl⟩

theorem witness_ClockRefinesSteps_fault : ∃ d, clockEdges timing3
    [startEdge 0 0 3, startEdge 1 1 0, { quietEdge with rst := true }] Clocked.reset = .next d ∧
      d.core.fault = some .startWhileBusy := ⟨_, rfl, rfl⟩

theorem witness_ClockRefinesSteps_none : ∃ d, clockEdges timing3 [startEdge 0 0 3, quietEdge, quietEdge, quietEdge]
    Clocked.reset = .next d ∧ d.core.fault = none := ⟨_, rfl, rfl⟩

theorem witness_SequencesAgree : 0 < 28 ∧ 27 < 28 := by decide

theorem witness_SequencesFailFast : (∃ p ∈ [1, 3], p < 1 ∨ [true, false].length < p) ∧ (∃ p ∈ [0], p < 1 ∨ 2 < p) ∧
    [true, false].length ≤ 2 ∧ [true].length ≠ ([] : List Bool).length ∧ [true].length % 8 ≠ 0 ∧
    [true].length ≠ 64 ∧ [true].length ≠ 32 ∧ (List.replicate 32 true).length = 32 ∧ [true].length ≠ 48 := by decide

end Sys2Proof.Machine.Tests
end

section
/-! SUPPORT. The state's obligations (10_state.md): which ports are defined, what a command and a step can change, the
invariant, and indistinguishability of states that look the same. -/

namespace Sys2Proof.Machine

/-! ### Which reads are defined (R44, R229) -/

theorem shows_eq_true_iff {s : State} {valid : Bool} :
    shows s valid = true ↔ s.fault = none ∧ s.busy = false ∧ valid = true := by
  simp [shows, and_assoc]

theorem shows_eq_false_iff {s : State} {valid : Bool} :
    shows s valid = false ↔ s.fault ≠ none ∨ s.busy = true ∨ valid = false := by
  rw [← Bool.not_eq_true, shows_eq_true_iff]
  simp only [not_and_or, Bool.not_eq_true, Bool.not_eq_false, ne_eq]

theorem shows_congr {s t : State} {v w : Bool} (hf : s.fault = t.fault) (hb : s.busy = t.busy) (hv : v = w) :
    shows s v = shows t w := by
  simp only [shows, hf, hb, hv]

theorem statusO_of_fault_none {s : State} (hf : s.fault = none) (n : Nat) : statusO n s = statusWord s := by
  simp [statusO, hf]

theorem blockO_of_shows {s : State} (h : shows s s.outValid = true) (n : Nat) : blockO n s = s.outR := by
  simp [blockO, h]

theorem rkO_of_shows {s : State} (h : shows s s.rkValid = true) (n : Nat) (sel : BitVec 4) :
    rkO n sel s = keyAt s.rk (sel.toNat + 1) := by
  simp [rkO, h]

theorem traceO_of_shows {s : State} (h : shows s s.traceValid = true) (n : Nat) (sel : BitVec 4) :
    traceO n sel s = packTrace (recordAt s.trace (sel.toNat + 1)) := by
  simp [traceO, h]

theorem blockO_of_not_shows {s : State} (h : shows s s.outValid = false) (n : Nat) :
    blockO n s = Config.readBlock n s := by
  simp [blockO, h]

theorem rkO_of_not_shows {s : State} (h : shows s s.rkValid = false) (n : Nat) (sel : BitVec 4) :
    rkO n sel s = Config.readRoundKey n sel s := by
  simp [rkO, h]

theorem traceO_of_not_shows {s : State} (h : shows s s.traceValid = false) (n : Nat) (sel : BitVec 4) :
    traceO n sel s = Config.readTrace n sel s := by
  simp [traceO, h]

/-- Select i addresses entry i + 1 of a register file (R93, R94). -/
theorem toNat_select (i : Fin 16) : (BitVec.ofNat 4 i).toNat = i.val := by
  rw [BitVec.toNat_ofNat, Nat.mod_eq_of_lt i.isLt]

/-! ### Defined reads of two states agree where the registers they show do -/

section
variable {s t : State} {n m : Nat} {sel : BitVec 4}

theorem blockO_congr (hshow : shows s s.outValid = shows t t.outValid) (hreg : s.outValid = true → s.outR = t.outR)
    (h : shows s s.outValid = true) : blockO n s = blockO m t := by
  obtain ⟨-, -, hv⟩ := shows_eq_true_iff.mp h
  rw [blockO_of_shows h, blockO_of_shows (hshow ▸ h), hreg hv]

theorem rkO_congr (hshow : shows s s.rkValid = shows t t.rkValid) (hreg : s.rkValid = true → s.rk = t.rk)
    (h : shows s s.rkValid = true) : rkO n sel s = rkO m sel t := by
  obtain ⟨-, -, hv⟩ := shows_eq_true_iff.mp h
  rw [rkO_of_shows h, rkO_of_shows (hshow ▸ h), hreg hv]

theorem traceO_congr (hshow : shows s s.traceValid = shows t t.traceValid)
    (hreg : s.traceValid = true → s.trace = t.trace) (h : shows s s.traceValid = true) :
    traceO n sel s = traceO m sel t := by
  obtain ⟨-, -, hv⟩ := shows_eq_true_iff.mp h
  rw [traceO_of_shows h, traceO_of_shows (hshow ▸ h), hreg hv]

end

/-! ### What a command and a step can do -/

/-- The next state of a command, by the way it completes (`exec_cases` read from the answer). -/
theorem exec_next_cases {i : Instr} {s t : State} (h : exec i s = .next t) :
    ((∃ d, i = .keygen d) ∧ t = (s.writeKeys (generate s.keyR)).complete errNone) ∨
    (s.rkValid = true ∧ (i = .runEnc ∨ i = .runDec) ∧
      ∃ dir, t = (s.writeResult (run s.blkR s.rk dir)).complete errNone) ∨
    ((∃ d, i = .decrypt d) ∧ t = ((s.writeKeys (generate s.keyR)).writeResult
      (run s.blkR (generate s.keyR) .decrypt)).complete errNone) ∨
    (s.rkValid = false ∧ (i = .runEnc ∨ i = .runDec) ∧ t = s.complete errNoKeys) ∨
    ((∃ d, i = .rsv d) ∧ t = s.complete errIllegalOp) := by
  rcases exec_cases i s with ⟨hi, he⟩ | ⟨hv, dir, hi, he⟩ | ⟨hi, he⟩ | ⟨hv, hi, he⟩ | ⟨hi, he⟩ <;>
    cases he.symm.trans h
  · exact .inl ⟨hi, rfl⟩
  · exact .inr (.inl ⟨hv, hi.imp And.left And.left, dir, rfl⟩)
  · exact .inr (.inr (.inl ⟨hi, rfl⟩))
  · exact .inr (.inr (.inr (.inl ⟨hv, hi, rfl⟩)))
  · exact .inr (.inr (.inr (.inr ⟨hi, rfl⟩)))

/-- The frame that all commands share (R43, R224). -/
theorem exec_frame {i : Instr} {s t : State} (h : exec i s = .next t) :
    t.keyR = s.keyR ∧ t.blkR = s.blkR ∧ t.cmdR = s.cmdR ∧ t.fault = s.fault ∧ t.inputs = s.inputs ∧
      t.draws = s.draws ∧ t.busy = false ∧ t.done = true := by
  rcases exec_next_cases h with ⟨-, rfl⟩ | ⟨-, -, dir, rfl⟩ | ⟨-, rfl⟩ | ⟨-, -, rfl⟩ | ⟨-, rfl⟩ <;> simp

/-- RUN reads the round keys and does not write them (R203). -/
theorem runCommand_keeps_keys {dir : Dir} {s t : State} (h : runCommand dir s = .next t) :
    t.rk = s.rk ∧ t.rkValid = s.rkValid := by
  rw [runCommand] at h
  split at h <;> cases h <;> simp

/-- Only KEYGEN and DECRYPT write the round keys (R43, R34). -/
theorem exec_keys_cause {i : Instr} {s t : State} (h : exec i s = .next t)
    (hw : t.rk ≠ s.rk ∨ t.rkValid ≠ s.rkValid) : ∃ d, i = .keygen d ∨ i = .decrypt d := by
  rcases exec_next_cases h with ⟨⟨d, hi⟩, -⟩ | ⟨-, -, dir, rfl⟩ | ⟨⟨d, hi⟩, -⟩ | ⟨-, -, rfl⟩ | ⟨-, rfl⟩
  case inl => exact ⟨d, .inl hi⟩
  case inr.inr.inl => exact ⟨d, .inr hi⟩
  all_goals simp at hw

/-- Only DECRYPT and a RUN with valid keys write a result (R43, R35, R36, R263). -/
theorem exec_result_cause {i : Instr} {s t : State} (h : exec i s = .next t)
    (hw : (t.outR ≠ s.outR ∨ t.trace ≠ s.trace) ∨ t.outValid ≠ s.outValid ∨ t.traceValid ≠ s.traceValid) :
    (∃ d, i = .decrypt d) ∨ (i = .runEnc ∨ i = .runDec) ∧ s.rkValid = true := by
  rcases exec_next_cases h with ⟨-, rfl⟩ | ⟨hv, hi, -⟩ | ⟨hi, -⟩ | ⟨-, -, rfl⟩ | ⟨-, rfl⟩
  case inr.inl => exact .inr ⟨hi, hv⟩
  case inr.inr.inl => exact .inl hi
  all_goals simp at hw

/-- Everything a step's next state can be, with the name of each kind of step (R221 to R224, R290): a completion, an idle
turn, an accepted start, a protocol violation, or a Reset. -/
theorem step_next_cases {s t : State} (h : step s = .next t) :
    (completes s ∧ exec (decode s.cmdR) s.afterMove = .next t) ∨
    t = s.afterMove ∨
    (acceptsStart s ∧ ∃ key block cmd, t = s.afterMove.capture key block cmd) ∨
    t = s.afterMove.raiseFault .startWhileBusy (nextMove s) ∨
    (resets s ∧ t = s.afterMove.resetStep) := by
  rcases turn_cases h with ⟨hf, hb, hm, he⟩ | ⟨-, -, -, ht⟩ | ⟨hf, hb, key, block, cmd, hm, ht⟩ | ⟨-, -, -, ht⟩ |
    ⟨hm, ht⟩
  · exact .inl ⟨⟨hf, hb, hm⟩, he⟩
  · exact .inr (.inl ht)
  · exact .inr (.inr (.inl ⟨⟨hf, hb, key, block, cmd, hm⟩, key, block, cmd, ht⟩))
  · exact .inr (.inr (.inr (.inl ht)))
  · exact .inr (.inr (.inr (.inr ⟨hm, ht⟩)))

/-! ### The invariant, one lemma per operation on the state -/

section
variable {s : State}

theorem Inv.afterMove (h : Inv s) : Inv s.afterMove := h

theorem Inv.raiseFault (f : Fault) (m : HostMove) : Inv (s.raiseFault f m) := nofun

theorem Inv.resetStep : Inv s.resetStep := fun _ =>
  ⟨by simp, rfl, fun _ => rfl, fun _ => rfl, nofun, nofun⟩

theorem Inv.capture (h : Inv s) (key block : Block) (cmd : CmdWord) : Inv (s.capture key block cmd) := by
  intro hf
  obtain ⟨-, hvalid, -, -, hkeys, hresult⟩ := h hf
  exact ⟨by simp [errNone], hvalid, fun _ => rfl, fun _ => rfl, hkeys, hresult⟩

theorem Inv.writeKeys (h : Inv s) {rk : Vector RoundKey 16} (hrk : ∃ key, rk = generate key) :
    Inv (s.writeKeys rk) := by
  intro hf
  obtain ⟨herr, hvalid, hbusy, hdone, -, hresult⟩ := h hf
  exact ⟨herr, hvalid, hbusy, hdone, fun _ => hrk, hresult⟩

theorem Inv.writeResult (h : Inv s) {r : RunResult} (hr : ∃ block key dir, r = run block (generate key) dir) :
    Inv (s.writeResult r) := by
  intro hf
  obtain ⟨herr, -, hbusy, hdone, hkeys, -⟩ := h hf
  obtain ⟨block, key, dir, hrun⟩ := hr
  exact ⟨herr, rfl, hbusy, hdone, hkeys,
    fun _ => ⟨block, key, dir, congrArg RunResult.output hrun, congrArg RunResult.trace hrun⟩⟩

theorem Inv.complete (h : Inv s) {code : BitVec 2} (hcode : code ≠ 0b11) : Inv (s.complete code) := by
  intro hf
  obtain ⟨-, hvalid, -, -, hkeys, hresult⟩ := h hf
  exact ⟨hcode, hvalid, nofun, nofun, hkeys, hresult⟩

/-- Every command keeps the invariant; a RUN with valid keys does because RK then holds a generated schedule. -/
theorem Inv.exec {t : State} {i : Instr} (h : Inv s) (hf : s.fault = none) (he : exec i s = .next t) : Inv t := by
  rcases exec_next_cases he with ⟨-, rfl⟩ | ⟨hv, -, dir, rfl⟩ | ⟨-, rfl⟩ | ⟨-, -, rfl⟩ | ⟨-, rfl⟩
  · exact (h.writeKeys ⟨_, rfl⟩).complete (by decide)
  · obtain ⟨-, -, -, -, hkeys, -⟩ := h hf
    obtain ⟨key, hkey⟩ := hkeys hv
    exact (h.writeResult ⟨_, key, dir, by rw [hkey]⟩).complete (by decide)
  · exact ((h.writeKeys ⟨_, rfl⟩).writeResult ⟨_, _, _, rfl⟩).complete (by decide)
  · exact h.complete (by decide)
  · exact h.complete (by decide)

/-- Every step keeps the invariant. -/
theorem Inv.step {t : State} (h : Inv s) (hs : step s = .next t) : Inv t := by
  rcases step_next_cases hs with ⟨⟨hf, -⟩, he⟩ | rfl | ⟨-, key, block, cmd, rfl⟩ | rfl | ⟨-, rfl⟩
  · exact h.afterMove.exec hf he
  · exact h.afterMove
  · exact h.afterMove.capture key block cmd
  · exact Inv.raiseFault _ _
  · exact Inv.resetStep

end

/-! ### States that look the same, one lemma per operation on the state -/

section
variable {s t : State}

theorem Same.fault_eq (h : Same s t) : s.fault = t.fault := h.1

theorem Same.busy_eq (h : Same s t) (hf : s.fault = none) : s.busy = t.busy := (h.2.2.2 hf).1

theorem Same.nextMove_eq (h : Same s t) : nextMove s = nextMove t := by
  obtain ⟨-, hinputs, -, -⟩ := h
  rw [nextMove, nextMove, hinputs]

theorem Same.afterMove (h : Same s t) : Same s.afterMove t.afterMove := by
  obtain ⟨hfault, hinputs, hdraws, hregs⟩ := h
  exact ⟨hfault, congrArg List.tail hinputs, hdraws, hregs⟩

/-- What the violation leaves is drawn apart in the two states, and nothing of it is seen: FAULT is set in both. -/
theorem Same.raiseFault (h : Same s t) (f : Fault) (m : HostMove) : Same (s.raiseFault f m) (t.raiseFault f m) := by
  obtain ⟨-, hinputs, hdraws, -⟩ := h
  exact ⟨rfl, hinputs, congrArg (· + 1) hdraws, nofun⟩

theorem Same.resetStep (h : Same s t) : Same s.resetStep t.resetStep := by
  obtain ⟨hfault, hinputs, hdraws, -⟩ := h
  exact ⟨hfault, hinputs, hdraws, fun _ => ⟨rfl, rfl, rfl, rfl, rfl, rfl, nofun, nofun, nofun, nofun⟩⟩

theorem Same.capture (h : Same s t) (key block : Block) (cmd : CmdWord) :
    Same (s.capture key block cmd) (t.capture key block cmd) := by
  obtain ⟨hfault, hinputs, hdraws, hregs⟩ := h
  refine ⟨hfault, hinputs, hdraws, fun hf => ?_⟩
  obtain ⟨-, -, -, hrkv, houtv, htracev, -, hrk, hout, htrace⟩ := hregs hf
  exact ⟨rfl, rfl, rfl, hrkv, houtv, htracev, fun _ => ⟨rfl, rfl, rfl⟩, hrk, hout, htrace⟩

theorem Same.writeKeys (h : Same s t) (rk : Vector RoundKey 16) : Same (s.writeKeys rk) (t.writeKeys rk) := by
  obtain ⟨hfault, hinputs, hdraws, hregs⟩ := h
  refine ⟨hfault, hinputs, hdraws, fun hf => ?_⟩
  obtain ⟨hbusy, hdone, herr, -, houtv, htracev, hcap, -, hout, htrace⟩ := hregs hf
  exact ⟨hbusy, hdone, herr, rfl, houtv, htracev, hcap, fun _ => rfl, hout, htrace⟩

theorem Same.writeResult (h : Same s t) (r : RunResult) : Same (s.writeResult r) (t.writeResult r) := by
  obtain ⟨hfault, hinputs, hdraws, hregs⟩ := h
  refine ⟨hfault, hinputs, hdraws, fun hf => ?_⟩
  obtain ⟨hbusy, hdone, herr, hrkv, -, -, hcap, hrk, -, -⟩ := hregs hf
  exact ⟨hbusy, hdone, herr, hrkv, rfl, rfl, hcap, hrk, fun _ => rfl, fun _ => rfl⟩

theorem Same.complete (h : Same s t) (code : BitVec 2) : Same (s.complete code) (t.complete code) := by
  obtain ⟨hfault, hinputs, hdraws, hregs⟩ := h
  refine ⟨hfault, hinputs, hdraws, fun hf => ?_⟩
  obtain ⟨-, -, -, hrkv, houtv, htracev, -, hrk, hout, htrace⟩ := hregs hf
  exact ⟨rfl, rfl, rfl, hrkv, houtv, htracev, nofun, hrk, hout, htrace⟩

/-- RUN reads BLK_R, RK_VALID and, where that is 1, RK; on all three the two states agree while BUSY. -/
theorem Same.runCommand (h : Same s t) (hf : s.fault = none) (hb : s.busy = true) (dir : Dir) :
    ∃ s' t', runCommand dir s = .next s' ∧ runCommand dir t = .next t' ∧ Same s' t' := by
  obtain ⟨-, -, -, hrkv, -, -, hcap, hrk, -, -⟩ := h.2.2.2 hf
  obtain ⟨-, hblk, -⟩ := hcap hb
  cases hv : s.rkValid with
  | true =>
    refine ⟨_, _, if_pos hv, if_pos (hrkv ▸ hv), ?_⟩
    rw [← hblk, ← hrk hv]
    exact (h.writeResult _).complete _
  | false => exact ⟨_, _, if_neg (by simp [hv]), if_neg (by simp [← hrkv, hv]), h.complete _⟩

/-- A command on two states that look the same while BUSY answers two that look the same. -/
theorem Same.exec (h : Same s t) (hf : s.fault = none) (hb : s.busy = true) (i : Instr) :
    ∃ s' t', exec i s = .next s' ∧ exec i t = .next t' ∧ Same s' t' := by
  obtain ⟨-, -, -, -, -, -, hcap, -, -, -⟩ := h.2.2.2 hf
  obtain ⟨hkey, hblk, -⟩ := hcap hb
  cases i with
  | keygen d =>
    refine ⟨_, _, rfl, rfl, ?_⟩
    rw [← hkey]
    exact (h.writeKeys _).complete _
  | runEnc => exact h.runCommand hf hb .encrypt
  | runDec => exact h.runCommand hf hb .decrypt
  | decrypt d =>
    refine ⟨_, _, rfl, rfl, ?_⟩
    rw [← hkey, ← hblk]
    exact ((h.writeKeys _).writeResult _).complete _
  | rsv d => exact ⟨_, _, rfl, rfl, h.complete _⟩

/-- One host move takes two states that look the same to two that do, or stops in both with the same fault. -/
theorem Same.turn (h : Same s t) (m : HostMove) :
    (∃ s' t', turn m s = .next s' ∧ turn m t = .next t' ∧ Same s' t') ∨
      ∃ f, turn m s = .fault f ∧ turn m t = .fault f := by
  cases hfs : s.fault with
  | some f =>
    have hft : t.fault = some f := h.fault_eq ▸ hfs
    cases m with
    | idle => exact .inr ⟨f, coreTurn_fault hfs, coreTurn_fault hft⟩
    | start key block cmd => exact .inr ⟨f, hostStart_fault hfs key block cmd, hostStart_fault hft key block cmd⟩
    | reset => exact .inl ⟨_, _, rfl, rfl, h.resetStep⟩
  | none =>
    have hft : t.fault = none := h.fault_eq ▸ hfs
    have hbusy := h.busy_eq hfs
    refine .inl ?_
    cases hbs : s.busy with
    | true =>
      have hbt : t.busy = true := hbusy ▸ hbs
      cases m with
      | idle =>
        obtain ⟨-, -, -, -, -, -, hcap, -, -, -⟩ := h.2.2.2 hfs
        obtain ⟨-, -, hcmd⟩ := hcap hbs
        obtain ⟨s', t', hs, ht, h'⟩ := h.exec hfs hbs (decode s.cmdR)
        exact ⟨s', t', (coreTurn_busy hfs hbs).trans hs, (coreTurn_busy hft hbt).trans (hcmd ▸ ht), h'⟩
      | start key block cmd =>
        exact ⟨_, _, hostStart_busy hfs hbs key block cmd, hostStart_busy hft hbt key block cmd, h.raiseFault _ _⟩
      | reset => exact ⟨_, _, rfl, rfl, h.resetStep⟩
    | false =>
      have hbt : t.busy = false := hbusy ▸ hbs
      cases m with
      | idle => exact ⟨s, t, coreTurn_idle hfs hbs, coreTurn_idle hft hbt, h⟩
      | start key block cmd =>
        exact ⟨_, _, hostStart_accept hfs hbs key block cmd, hostStart_accept hft hbt key block cmd,
          h.capture key block cmd⟩
      | reset => exact ⟨_, _, rfl, rfl, h.resetStep⟩

theorem Same.step (h : Same s t) :
    (∃ s' t', step s = .next s' ∧ step t = .next t' ∧ Same s' t') ∨ ∃ f, step s = .fault f ∧ step t = .fault f := by
  rw [Machine.step, Machine.step, ← h.nextMove_eq]
  exact h.afterMove.turn (nextMove s)

theorem Same.run (k : Nat) : ∀ {s t : State}, Same s t →
    sameOutcome (Sys2Proof.core.run k s) (Sys2Proof.core.run k t) := by
  induction k with
  | zero => exact fun h => h
  | succ k ih =>
    intro s t h
    rcases h.step with ⟨s', t', hs, ht, h'⟩ | ⟨f, hs, ht⟩
    · rw [run_next hs, run_next ht]
      exact ih h'
    · rw [run_fault hs, run_fault ht]
      rfl

end

/-! ### The obligations -/

/-- Settles O43: each kind of step is made of operations that keep the invariant. -/
theorem stepKeepsInv : Obligations.StepKeepsInv := fun _ _ h hs => h.step hs

/-- Settles O44, by induction on the number of steps. -/
theorem sameStatesStaySame : Obligations.SameStatesStaySame := fun _ _ h k => h.run k

/-- Settles O29. -/
theorem commandFrames : Obligations.CommandFrames := by
  intro i s t h
  obtain ⟨hkey, hblk, hcmd, hfault, hinputs, hdraws, hbusy, hdone⟩ := exec_frame h
  refine ⟨hkey, hblk, hcmd, hfault, hinputs, hdraws, hbusy, hdone, ?keygen, ?run, ?rsv⟩
  case keygen =>
    rintro ⟨d, rfl⟩
    cases h
    simp
  case run =>
    rintro (rfl | rfl)
    · exact runCommand_keeps_keys (dir := .encrypt) h
    · exact runCommand_keeps_keys (dir := .decrypt) h
  case rsv =>
    rintro ⟨d, rfl⟩
    cases h
    simp

/-- Settles O30, by the five ways a command completes: each writes one error code. -/
theorem errorCodes : Obligations.ErrorCodes := by
  intro i s t h
  rcases exec_next_cases h with ⟨⟨d, rfl⟩, rfl⟩ | ⟨hv, hi, dir, rfl⟩ | ⟨⟨d, rfl⟩, rfl⟩ | ⟨hv, hi, rfl⟩ | ⟨⟨d, rfl⟩, rfl⟩
  · simp [errNone]
  · rcases hi with rfl | rfl <;> simp [errNone, hv]
  · simp [errNone]
  · rcases hi with rfl | rfl <;> simp [errNoKeys, hv]
  · simp [errIllegalOp]

/-- Settles O41, by the five kinds of step; a completion writes what its command writes. -/
theorem everyWriteHasItsCause : Obligations.EveryWriteHasItsCause := by
  intro s t hs hf
  rcases step_next_cases hs with ⟨hc, he⟩ | rfl | ⟨ha, key, block, cmd, rfl⟩ | rfl | ⟨hr, rfl⟩
  · obtain ⟨hkey, hblk, hcmd, -⟩ := exec_frame he
    have hkeys := exec_keys_cause he
    have hresult := exec_result_cause he
    exact ⟨by simp [hkey, hblk, hcmd], fun hw => ⟨hc, hkeys (.inl hw)⟩, fun hw => .inr ⟨hc, hkeys (.inr hw)⟩,
      fun hw => ⟨hc, hresult (.inl hw)⟩, fun hw => .inr ⟨hc, hresult (.inr hw)⟩, fun _ => .inr (.inl hc)⟩
  · simp
  · simp [ha]
  · simp at hf
  · simp [hr]

/-- Settles O45. -/
theorem sameStatesShowSame : Obligations.SameStatesShowSame := by
  intro s t h hf n m sel
  have hft : t.fault = none := h.fault_eq ▸ hf
  obtain ⟨hbusy, hdone, herr, hrkv, houtv, htracev, -, hrk, hout, htrace⟩ := h.2.2.2 hf
  have hshowOut := shows_congr h.fault_eq hbusy houtv
  have hshowRk := shows_congr h.fault_eq hbusy hrkv
  have hshowTrace := shows_congr h.fault_eq hbusy htracev
  refine ⟨?status, ⟨hshowOut, hshowRk, hshowTrace⟩, blockO_congr hshowOut hout, rkO_congr hshowRk hrk,
    traceO_congr hshowTrace htrace⟩
  rw [statusO_of_fault_none hf, statusO_of_fault_none hft]
  simp only [statusWord, hbusy, hdone, herr, hrkv, houtv, htracev]

/-- Settles O40. -/
theorem resetState : Obligations.ResetState :=
  ⟨rfl, rfl, rfl, rfl, rfl, rfl, rfl, fun n => (statusO_of_fault_none rfl n).trans (by decide)⟩

/-- Settles O42: the reset state is one that a Reset leaves as it is. -/
theorem invAtReset : Obligations.InvAtReset := Inv.resetStep (s := State.reset)

/-- Settles O49. -/
theorem dataPortsAreGated : Obligations.DataPortsAreGated := by
  intro n s i
  refine ⟨fun hf hb => ⟨fun hv => ?block, fun hv => ?rk, fun hv => ?trace⟩,
    fun h => blockO_of_not_shows (shows_eq_false_iff.mpr h) n,
    fun h => rkO_of_not_shows (shows_eq_false_iff.mpr h) n _,
    fun h => traceO_of_not_shows (shows_eq_false_iff.mpr h) n _⟩
  case block => exact blockO_of_shows (shows_eq_true_iff.mpr ⟨hf, hb, hv⟩) n
  case rk =>
    rw [rkO_of_shows (shows_eq_true_iff.mpr ⟨hf, hb, hv⟩), toNat_select]
    exact keyAt_succ s.rk i i.isLt
  case trace =>
    rw [traceO_of_shows (shows_eq_true_iff.mpr ⟨hf, hb, hv⟩), toNat_select]
    exact congrArg packTrace (recordAt_succ s.trace i i.isLt)

/-- Settles O51: the two states differ in no register a port shows, nor in what decides which reads are defined. -/
theorem captureRegistersAreHidden : Obligations.CaptureRegistersAreHidden := by
  intro s t key block cmd ht hf n m sel
  have hft : t.fault = none := ht ▸ hf
  have hstatus : statusO n s = statusO m t := by
    rw [statusO_of_fault_none hf, statusO_of_fault_none hft, ht]
    rfl
  subst ht
  exact ⟨hstatus, ⟨rfl, rfl, rfl⟩, blockO_congr rfl fun _ => rfl, rkO_congr rfl fun _ => rfl,
    traceO_congr rfl fun _ => rfl⟩

end Sys2Proof.Machine
end

section
/-! SUPPORT. Permutation by a composed table and by the identity table (40_bit_primitives.md R130, R137), and with them
the obligation on the initial and the final permutation (20_memory.md R75 item 2). -/

namespace Sys2Proof.Machine

/-- `getMsbD_permute` at an output position, with the entry read as `composeTables` and R75 read it. -/
theorem getMsbD_permute_of_lt {n m : Nat} (v : BitVec n) (T : Table n m) {i : Nat} (hi : i < m) :
    (permute v T).getMsbD i = bitAt v (T.entries.getD i 0) := by
  have hlen : i < T.entries.length := by rwa [T.length_entries]
  rw [getMsbD_permute, dif_pos hlen, List.getD_eq_getElem _ _ hlen]

/-- Every output position of a table reads an input position (R54). -/
theorem getD_entries_mem_range {n m : Nat} (T : Table n m) {i : Nat} (hi : i < m) :
    1 ≤ T.entries.getD i 0 ∧ T.entries.getD i 0 ≤ n := by
  have hlen : i < T.entries.length := by rwa [T.length_entries]
  rw [List.getD_eq_getElem _ _ hlen]
  exact T.mem_range (List.getElem_mem hlen)

theorem getD_composeTables {n m k : Nat} (T1 : Table n m) (T2 : Table m k) {j : Nat} (hj : j < k) :
    (composeTables T1 T2).entries.getD j 0 = T1.entries.getD (T2.entries.getD j 0 - 1) 0 := by
  have hlen : j < T2.entries.length := by rwa [T2.length_entries]
  simp [composeTables, hlen]

/-- Two permutations one after the other are one, by the composed table (R137 item 1). -/
theorem permute_permute {n m k : Nat} (v : BitVec n) (T1 : Table n m) (T2 : Table m k) :
    permute (permute v T1) T2 = permute v (composeTables T1 T2) := by
  apply BitVec.eq_of_getMsbD_eq
  intro j hj
  obtain ⟨hpos, hle⟩ := getD_entries_mem_range T2 hj
  rw [getMsbD_permute_of_lt _ _ hj, getMsbD_permute_of_lt _ _ hj, getD_composeTables T1 T2 hj, bitAt,
    getMsbD_permute_of_lt v T1 (by omega)]

/-- The table whose entry j is j permutes nothing. -/
theorem permute_eq_self {n : Nat} (v : BitVec n) {T : Table n n} (hT : ∀ j < n, T.entries.getD j 0 = j + 1) :
    permute v T = v := by
  apply BitVec.eq_of_getMsbD_eq
  intro j hj
  rw [getMsbD_permute_of_lt v T hj, hT j hj, bitAt, Nat.add_sub_cancel]

/-- A permutation is undone by a table T2 with `T1[T2[j]] = j` for every j. -/
theorem permute_permute_eq_self {n m : Nat} (v : BitVec n) {T1 : Table n m} {T2 : Table m n}
    (h : ∀ j < n, T1.entries.getD (T2.entries.getD j 0 - 1) 0 = j + 1) : permute (permute v T1) T2 = v := by
  rw [permute_permute]
  exact permute_eq_self v fun j hj => (getD_composeTables T1 T2 hj).trans (h j hj)

/-- Settles O7: `IP[FP[j]] = j` and `FP[IP[j]] = j` (R75 item 2), so each permutation undoes the other. -/
theorem initialAndFinalPermutationsInvert : Obligations.InitialAndFinalPermutationsInvert := fun x =>
  ⟨permute_permute_eq_self x fun j hj => (rom_ipFpInverse j hj).2,
    permute_permute_eq_self x fun j hj => (rom_ipFpInverse j hj).1⟩

end Sys2Proof.Machine
end

section
/-! SUPPORT. The encoding's obligations (30_encoding.md): the command word and its rows, the operands of the S-boxes,
the fields of the two composed ports, the placement of a word, and the two decrypting scripts. -/

namespace Sys2Proof.Machine

/-! ### The command word (R95, R100 to R104) -/

theorem decode_encode (i : Instr) : decode (encode i) = i := by
  cases i with
  | keygen dir | decrypt dir | rsv dir => revert dir; decide
  | runEnc | runDec => rfl

theorem encode_decode (w : CmdWord) : encode (decode w) = w := by
  revert w
  decide

theorem decode_eq_iff {w : CmdWord} {i : Instr} : decode w = i ↔ w = encode i :=
  ⟨fun h => h ▸ (encode_decode w).symm, fun h => h ▸ decode_encode i⟩

/-- The words with op code `op`, whatever their `dir` bit is, are the words that the mask of a `-op` row selects. -/
theorem exists_eq_append_iff (op : BitVec 2) (w : CmdWord) :
    (∃ dir : BitVec 1, w = dir ++ op) ↔ w &&& 0b011 = 0#1 ++ op := by
  revert op w
  decide

/-- The mask of a RUN row selects one word. -/
theorem and_fullMask (w : CmdWord) : w &&& 0b111 = w := BitVec.and_allOnes

/-- Settles O1. -/
theorem opcodeMapDecodes : Obligations.OpcodeMapDecodes := ⟨rfl, rfl, rfl, rfl, rfl, rfl, rfl, rfl⟩

/-- Settles O2. -/
theorem decodeEncodeAgree : Obligations.DecodeEncodeAgree := ⟨fun i _ => decode_encode i, encode_decode⟩

/-- Settles O3: the words of a row are the encodings of its commands. -/
theorem rowsAreMatchAndMask : Obligations.RowsAreMatchAndMask := by
  intro w
  simp only [decode_eq_iff, and_fullMask]
  exact ⟨exists_eq_append_iff 0b00 w, Iff.rfl, Iff.rfl, exists_eq_append_iff 0b10 w, exists_eq_append_iff 0b11 w⟩

/-- Settles O4: no meaning reads the operand. -/
theorem dirIsIgnored : Obligations.DirIsIgnored := fun _ _ _ => ⟨rfl, rfl, rfl⟩

/-! ### S-box operands and outputs (R107, R108) -/

/-- Bit j of group i, in sequence order (R107). -/
theorem getMsbD_group (x : RoundKey) {i j : Nat} (h1 : 1 ≤ i) (h8 : i ≤ 8) (hj : j < 6) :
    (group x i).getMsbD j = x.getMsbD (6 * (i - 1) + j) := by
  have hle : 48 - 6 * i + 6 - j ≤ 48 := by omega
  have hpos : 48 - (48 - 6 * i + 6 - j) = 6 * (i - 1) + j := by omega
  simp [group, hj, hle, hpos]

/-- The outer bits of a group are its sequence bits 0 and 5 (R107). -/
theorem row_eq_getMsbD (g : BitVec 6) : row g = 2 * (g.getMsbD 0).toNat + (g.getMsbD 5).toNat := rfl

/-- One more bit on top of a field adds its weight to the field's value. -/
theorem toNat_extractLsb'_succ {w : Nat} (x : BitVec w) (start len : Nat) :
    (x.extractLsb' start (len + 1)).toNat =
      2 ^ len * (x.getLsbD (start + len)).toNat + (x.extractLsb' start len).toNat := by
  rw [BitVec.extractLsb'_toNat, BitVec.extractLsb'_toNat, Nat.mod_pow_succ, ← Nat.toNat_testBit,
    Nat.testBit_shiftRight, BitVec.testBit_toNat, Nat.add_comm]

/-- The column is the number its four bits write (R107). -/
theorem col_eq_getMsbD (g : BitVec 6) :
    col g = 8 * (g.getMsbD 1).toNat + 4 * (g.getMsbD 2).toNat + 2 * (g.getMsbD 3).toNat + (g.getMsbD 4).toNat := by
  rw [col, toNat_extractLsb'_succ, toNat_extractLsb'_succ, toNat_extractLsb'_succ, toNat_extractLsb'_succ]
  simp [BitVec.getMsbD, BitVec.getLsbD, add_assoc]

/-- Settles O15, with the group `100001` by evaluation. -/
theorem sboxOperand : Obligations.SboxOperand :=
  ⟨fun x _ h1 h8 _ hj => getMsbD_group x h1 h8 hj, fun g => ⟨row_eq_getMsbD g, col_eq_getMsbD g⟩, rfl, rfl⟩

/-- The lanes stand in order, S1 on top (R175). The width of the right side is the sum of theirs and not 32, so that the
rules for a field of `++` apply to it. -/
theorem extractLsb'_substitute_eq (x : RoundKey) (start len : Nat) :
    (substitute x).extractLsb' start len =
      (lane 1 (group x 1) ++ lane 2 (group x 2) ++ lane 3 (group x 3) ++ lane 4 (group x 4) ++ lane 5 (group x 5) ++
        lane 6 (group x 6) ++ lane 7 (group x 7) ++ lane 8 (group x 8)).extractLsb' start len := rfl

/-- The nibble at place i of the S-box output is lane i (R175). -/
theorem extractLsb'_substitute (x : RoundKey) {i : Nat} (h1 : 1 ≤ i) (h8 : i ≤ 8) :
    (substitute x).extractLsb' (32 - 4 * i) 4 = lane i (group x i) := by
  rw [extractLsb'_substitute_eq]
  interval_cases i <;>
    simp (disch := decide) only [BitVec.extractLsb'_append_eq_of_le, BitVec.extractLsb'_append_eq_right,
      BitVec.extractLsb'_eq_self, Nat.reduceMul, Nat.reduceSub]

/-- Settles O16. -/
theorem sboxOutputAssembly : Obligations.SboxOutputAssembly := fun x _ h1 h8 => extractLsb'_substitute x h1 h8

/-! ### The status word and the trace port (R94, R96) -/

theorem ofBool_beq_one (b : Bool) : (BitVec.ofBool b == 1#1) = b := by cases b <;> rfl

/-- The status word as its fields (R96), its width the sum of theirs as in `extractLsb'_substitute_eq`. -/
theorem extractLsb'_statusWord_eq (s : State) (start len : Nat) :
    (statusWord s).extractLsb' start len =
      (0#1 ++ BitVec.ofBool s.traceValid ++ BitVec.ofBool s.outValid ++ BitVec.ofBool s.rkValid ++ s.err ++
        BitVec.ofBool s.done ++ BitVec.ofBool s.busy).extractLsb' start len := rfl

/-- The status word has no bit beside these (R96). -/
theorem statusWord_fields (s : State) :
    (statusWord s).getLsbD 0 = s.busy ∧ (statusWord s).getLsbD 1 = s.done ∧
    (statusWord s).extractLsb' 2 2 = s.err ∧ (statusWord s).getLsbD 4 = s.rkValid ∧
    (statusWord s).getLsbD 5 = s.outValid ∧ (statusWord s).getLsbD 6 = s.traceValid ∧
    (statusWord s).getLsbD 7 = false := by
  simp (disch := decide) only [BitVec.getLsbD_eq_extractLsb', extractLsb'_statusWord_eq,
    BitVec.extractLsb'_append_eq_of_le, BitVec.extractLsb'_append_eq_right, BitVec.extractLsb'_eq_self, Nat.reduceSub,
    ofBool_beq_one, true_and]
  rfl

/-- Settles O48. -/
theorem statusWordFields : Obligations.StatusWordFields := by
  obtain ⟨-, -, -, -, -, -, -, hreset⟩ := resetState
  refine ⟨fun n s hf => ?_, hreset⟩
  rw [statusO_of_fault_none hf]
  exact statusWord_fields s

/-- A packed record as its fields (R94), its width the sum of theirs as in `extractLsb'_substitute_eq`. -/
theorem extractLsb'_packTrace_eq (t : RoundState) (start len : Nat) :
    (packTrace t).extractLsb' start len =
      (t.round ++ t.k ++ t.lIn ++ t.rIn ++ t.expanded ++ t.xored ++ t.sboxOut ++ t.fOut ++ t.lOut ++
        t.rOut).extractLsb' start len := rfl

/-- Each field of a packed record is at the place R94 gives it. -/
theorem packTrace_fields (t : RoundState) :
    (packTrace t).extractLsb' 336 5 = t.round ∧ (packTrace t).extractLsb' 288 48 = t.k ∧
    (packTrace t).extractLsb' 256 32 = t.lIn ∧ (packTrace t).extractLsb' 224 32 = t.rIn ∧
    (packTrace t).extractLsb' 176 48 = t.expanded ∧ (packTrace t).extractLsb' 128 48 = t.xored ∧
    (packTrace t).extractLsb' 96 32 = t.sboxOut ∧ (packTrace t).extractLsb' 64 32 = t.fOut ∧
    (packTrace t).extractLsb' 32 32 = t.lOut ∧ (packTrace t).extractLsb' 0 32 = t.rOut := by
  simp (disch := decide) only [extractLsb'_packTrace_eq, BitVec.extractLsb'_append_eq_of_le,
    BitVec.extractLsb'_append_eq_right, BitVec.extractLsb'_eq_self, Nat.reduceSub, and_self]

/-- Settles O50: a shown record is packed as R94 says, and where none is shown the port is free (O49). -/
theorem tracePortLayout : Obligations.TracePortLayout := by
  rintro n s i _ _ rfl rfl
  obtain ⟨hshown, -, -, hfree⟩ := dataPortsAreGated n s i
  refine ⟨fun hf hb hv => ?_, hfree⟩
  obtain ⟨-, -, htrace⟩ := hshown hf hb
  rw [htrace hv]
  exact packTrace_fields s.trace[i]

/-! ### The placement of a word (logs 8 and 10) -/

/-- The idle move that the placement puts in front leaves the CORE its turn. -/
theorem step_withCommand (s : State) (cmd : CmdWord) :
    step (s.withCommand cmd) = exec (decode cmd) { s with cmdR := cmd, busy := true, fault := none } :=
  coreTurn_busy (s := (s.withCommand cmd).afterMove) rfl rfl

/-- Settles O34. -/
theorem placedWordIsPerformed : Obligations.PlacedWordIsPerformed := fun s _ w =>
  ⟨_, rfl, step_withCommand s (BitVec.ofNat 3 w)⟩

/-! ### Scripts (R114, R115) -/

/-- `START m; WAIT` on an idle core performs the command with the captured ports, and the script goes on from there. -/
theorem runScript_start_wait {s t : State} (hf : s.fault = none) (hb : s.busy = false) {key block : Block}
    {m : Mnemonic} (h : exec (decode (cmdCode m)) (s.capture key block (cmdCode m)) = .next t) (n : Nat)
    (rest : List ScriptAction) :
    runScript n key block s (.start m :: .wait :: rest) = runScript n key block t rest := by
  have hstart : turn (.start key block (cmdCode m)) s = .next (s.capture key block (cmdCode m)) :=
    hostStart_accept hf hb key block (cmdCode m)
  have hwait : turn .idle (s.capture key block (cmdCode m)) = .next t :=
    (coreTurn_busy (s := s.capture key block (cmdCode m)) hf rfl).trans h
  simp only [runScript, hstart, hwait, scriptTurn]

theorem runCommand_of_rkValid {s : State} (hv : s.rkValid = true) (dir : Dir) :
    runCommand dir s = .next ((s.writeResult (run s.blkR s.rk dir)).complete errNone) := if_pos hv

/-- An idle core after `SET key=k block=c; START KEYGEN; WAIT`. -/
def afterKeygen (s : State) (k c : Block) : State :=
  ((s.capture k c (cmdCode .keygen)).writeKeys (generate k)).complete errNone

section
variable {s : State} (hf : s.fault = none) (hb : s.busy = false)
include hf hb

/-- The DECRYPT script writes the key schedule and the result of its run (R227). -/
theorem runScript_decryptScript_ended (n : Nat) (k c key block : Block) :
    (runScript n key block s (decryptScript k c)).ended =
      .next ((((s.capture k c (cmdCode .decrypt)).writeKeys (generate k)).writeResult
        (run c (generate k) .decrypt)).complete errNone) :=
  congrArg ScriptRun.ended (runScript_start_wait hf hb (key := k) (block := c) (m := .decrypt) rfl n [])

/-- DECRYPT2: KEYGEN leaves an idle core with valid keys, so the run that follows writes its result (R203). -/
theorem runScript_decrypt2Script_ended (n : Nat) (k c key block : Block) :
    (runScript n key block s (decrypt2Script k c)).ended =
      .next ((((afterKeygen s k c).capture k c (cmdCode .runDec)).writeResult
        (run c (generate k) .decrypt)).complete errNone) := by
  have hkeygen := runScript_start_wait hf hb (key := k) (block := c) (m := .keygen) rfl n [.start .runDec, .wait]
  have hrun := runScript_start_wait (s := afterKeygen s k c) hf rfl (key := k) (block := c) (m := .runDec)
    (runCommand_of_rkValid (s := (afterKeygen s k c).capture k c (cmdCode .runDec)) rfl .decrypt) n []
  exact congrArg ScriptRun.ended (hkeygen.trans hrun)

end

/-- Settles O55: either script writes `generate k` to RK and the decrypting run of `c` with it to OUT_R and TRACE. -/
theorem decrypt2LeavesWhatDecryptLeaves : Obligations.Decrypt2LeavesWhatDecryptLeaves := by
  intro s k c key block hf hb
  have hdecrypt2 := runScript_decrypt2Script_ended hf hb 0 k c key block
  have hdecrypt := runScript_decryptScript_ended hf hb 0 k c key block
  exact ⟨_, _, runScript_ended _ hdecrypt2 hf, runScript_ended _ hdecrypt hf,
    rfl, rfl, rfl, rfl, rfl, rfl, rfl, rfl, rfl⟩

end Sys2Proof.Machine
end

section
/-! SUPPORT. The bit-vector primitives' obligations (40_bit_primitives.md): the bits of a permutation under `~`, `⊕` and a
change of one position, the rotation by sequence index, halves and bytes. -/

namespace Sys2Proof.Machine

/-! ### Permutation (R130, R137) -/

theorem bitAt_xor {n : Nat} (a b : BitVec n) (p : Nat) : bitAt (a ^^^ b) p = (bitAt a p ^^ bitAt b p) :=
  BitVec.getMsbD_xor

theorem bitAt_not {n p : Nat} (v : BitVec n) (h1 : 1 ≤ p) (hn : p ≤ n) : bitAt (~~~v) p = !bitAt v p := by
  have hlt : p - 1 < n := by omega
  simp [bitAt, hlt]

theorem bitAt_zero {n : Nat} (p : Nat) : bitAt (0#n) p = false := BitVec.getMsbD_zero

/-- `twoPow n (n - 1 - q)` is the block whose one set bit has sequence index q, which is position q + 1. -/
theorem bitAt_twoPow_of_ne {n p q : Nat} (hp : 1 ≤ p) (hq : q < n) (hne : p ≠ q + 1) :
    bitAt (BitVec.twoPow n (n - 1 - q)) p = false := by
  have hidx : p - 1 ≠ n - (n - 1 - q) - 1 := by omega
  simp [bitAt, BitVec.getMsbD_twoPow, hidx]

/-- R137 item 2. -/
theorem permute_xor {n m : Nat} (T : Table n m) (a b : BitVec n) :
    permute (a ^^^ b) T = permute a T ^^^ permute b T := by
  apply BitVec.eq_of_getMsbD_eq
  intro i hi
  rw [BitVec.getMsbD_xor, getMsbD_permute_of_lt _ T hi, getMsbD_permute_of_lt _ T hi, getMsbD_permute_of_lt _ T hi,
    bitAt_xor]

/-- R137 item 5. -/
theorem permute_not {n m : Nat} (T : Table n m) (v : BitVec n) : permute (~~~v) T = ~~~permute v T := by
  apply BitVec.eq_of_getMsbD_eq
  intro i hi
  obtain ⟨hpos, hle⟩ := getD_entries_mem_range T hi
  rw [BitVec.getMsbD_not, getMsbD_permute_of_lt _ T hi, getMsbD_permute_of_lt _ T hi, bitAt_not v hpos hle]
  simp [hi]

theorem permute_zero {n m : Nat} (T : Table n m) : permute (0#n) T = 0#m := by
  apply BitVec.eq_of_getMsbD_eq
  intro i hi
  rw [getMsbD_permute_of_lt _ T hi, bitAt_zero, BitVec.getMsbD_zero]

/-- All-ones is the complement of 0. -/
theorem permute_allOnes {n m : Nat} (T : Table n m) : permute (BitVec.allOnes n) T = BitVec.allOnes m := by
  rw [← BitVec.not_zero, permute_not, permute_zero, BitVec.not_zero]

/-- A position that no entry names has no influence (R130). -/
theorem permute_xor_twoPow {n m : Nat} (T : Table n m) (v : BitVec n) {q : Nat} (hq : q < n)
    (hfree : q + 1 ∉ T.entries) : permute (v ^^^ BitVec.twoPow n (n - 1 - q)) T = permute v T := by
  apply permute_congr
  intro p hp
  have hne : p ≠ q + 1 := fun h => hfree (h ▸ hp)
  rw [bitAt_xor, bitAt_twoPow_of_ne (T.mem_range hp).1 hq hne, Bool.xor_false]

/-- Settles O6. -/
theorem permuteCornerCases : Obligations.PermuteCornerCases := fun _ _ T =>
  ⟨permute_zero T, permute_allOnes T, fun v _ hq hfree => permute_xor_twoPow T v hq hfree⟩

/-! ### Rotation (R131, R137) -/

/-- The rotation by sequence index (R131). -/
theorem getMsbD_rotl {n i : Nat} (v : BitVec n) (s : Nat) (hi : i < n) :
    (rotl v s).getMsbD i = v.getMsbD ((i + s) % n) := by
  rw [rotl, BitVec.getMsbD_rotateLeft, decide_eq_true hi, Bool.true_and, Nat.add_comm]

/-- The rotation as integers (R131). -/
theorem rotl_eq_shifts {n s : Nat} (v : BitVec n) (hs : s < n) : rotl v s = (v <<< s) ||| (v >>> (n - s)) := by
  rw [rotl, BitVec.rotateLeft_def, Nat.mod_eq_of_lt hs]

theorem rotl_mod {n : Nat} (v : BitVec n) (s : Nat) : rotl v (s % n) = rotl v s :=
  BitVec.rotateLeft_mod_eq_rotateLeft

/-- Rotations add their amounts (R137 item 3). -/
theorem rotl_rotl {n : Nat} (v : BitVec n) (s t : Nat) : rotl (rotl v s) t = rotl v (s + t) := by
  apply BitVec.eq_of_getMsbD_eq
  intro i hi
  have hmod : (i + t) % n < n := Nat.mod_lt _ (by omega)
  rw [getMsbD_rotl _ _ hi, getMsbD_rotl _ _ hmod, getMsbD_rotl _ _ hi, Nat.mod_add_mod, Nat.add_assoc, Nat.add_comm t]

/-- R137 item 4. -/
theorem rotl_xor {n : Nat} (a b : BitVec n) (s : Nat) : rotl (a ^^^ b) s = rotl a s ^^^ rotl b s := by
  apply BitVec.eq_of_getMsbD_eq
  intro i hi
  simp only [BitVec.getMsbD_xor, getMsbD_rotl _ _ hi]

/-- R137 item 6. -/
theorem rotl_not {n : Nat} (v : BitVec n) (s : Nat) : rotl (~~~v) s = ~~~rotl v s := by
  apply BitVec.eq_of_getMsbD_eq
  intro i hi
  have hmod : (i + s) % n < n := Nat.mod_lt _ (by omega)
  simp only [BitVec.getMsbD_not, getMsbD_rotl _ _ hi, hi, hmod]

/-- Settles O5. -/
theorem primitiveLaws : Obligations.PrimitiveLaws :=
  ⟨fun _ _ _ T1 T2 v => ⟨fun _ hj => getD_composeTables T1 T2 hj, permute_permute v T1 T2⟩,
    fun _ _ => permute_xor,
    fun _ s t v _ _ => (rotl_rotl v s t).trans (rotl_mod v (s + t)).symm,
    fun _ s a b _ => rotl_xor a b s,
    fun _ _ => permute_not,
    fun _ s v _ => rotl_not v s⟩

/-- Settles O8. -/
theorem rotationMeaning : Obligations.RotationMeaning := fun _ s v hs =>
  ⟨fun _ hi => getMsbD_rotl v s hi, rotl_eq_shifts v hs⟩

/-! ### Halves and concatenation (R133, R134) -/

theorem split_append {n : Nat} (a b : BitVec n) : split (a ++ b) = (a, b) :=
  Prod.ext BitVec.extractLsb'_append_eq_left BitVec.extractLsb'_append_eq_right

theorem split_join {n : Nat} (v : BitVec (n + n)) : (split v).1 ++ (split v).2 = v :=
  BitVec.extractLsb'_append_extractLsb'

/-- Concatenation as integers (R133). -/
theorem toNat_append_eq_mul_add {m k : Nat} (a : BitVec m) (b : BitVec k) :
    (a ++ b).toNat = a.toNat * 2 ^ k + b.toNat := by
  rw [BitVec.toNat_append, ← Nat.shiftLeft_add_eq_or_of_lt b.isLt, Nat.shiftLeft_eq]

/-- Settles O9. -/
theorem splitInvertsConcat : Obligations.SplitInvertsConcat :=
  ⟨fun _ => split_append, fun _ => split_join, fun _ _ => toNat_append_eq_mul_add⟩

/-! ### Bytes (R136) -/

/-- Bit j of byte k, in sequence order (R136). -/
theorem getMsbD_byte {n k j : Nat} (v : BitVec (8 * n)) (hk : k < n) (hj : j < 8) :
    (v.extractLsb' (8 * (n - 1 - k)) 8).getMsbD j = v.getMsbD (8 * k + j) := by
  have hle : 8 * (n - 1 - k) + 8 - j ≤ 8 * n := by omega
  have hpos : 8 * n - (8 * (n - 1 - k) + 8 - j) = 8 * k + j := by omega
  simp [hj, hle, hpos]

theorem length_bitsToBytes {n : Nat} (v : BitVec (8 * n)) : (bitsToBytes v).length = n := by
  rw [bitsToBytes, List.length_map, List.length_range]

theorem getD_bitsToBytes {n k : Nat} (v : BitVec (8 * n)) (hk : k < n) :
    (bitsToBytes v).getD k 0 = v.extractLsb' (8 * (n - 1 - k)) 8 := by
  simp [bitsToBytes, hk]

/-- Settles O10. -/
theorem bytesAreBigEndian : Obligations.BytesAreBigEndian := by
  refine fun n v => ⟨length_bitsToBytes v, fun k hk j hj => ?_⟩
  rw [getD_bitsToBytes v hk, getMsbD_byte v hk hj]

end Sys2Proof.Machine
end

section
/-! SUPPORT. The operations on untyped sequences (60_exceptions.md R260, R261; log 14): what each answers, by the length,
the entries or the amount it is given, and that on the bits of a block this is the hardware's operation. -/

namespace Sys2Proof.Machine

/-! ### The bits of a block, in order (R13) -/

@[simp] theorem length_bitsOf {n : Nat} (v : BitVec n) : (bitsOf v).length = n := by
  rw [bitsOf, List.length_map, List.length_range]

@[simp] theorem getElem_bitsOf {n i : Nat} (v : BitVec n) (hi : i < (bitsOf v).length) :
    (bitsOf v)[i] = v.getMsbD i := by
  simp [bitsOf]

theorem getD_bitsOf {n : Nat} (v : BitVec n) (i : Nat) : (bitsOf v).getD i false = v.getMsbD i := by
  by_cases hi : i < n
  · rw [List.getD_eq_getElem _ _ (by simpa using hi), getElem_bitsOf]
  · rw [List.getD_eq_default _ _ (by simpa using hi), BitVec.getMsbD_of_ge _ _ (by omega)]

/-- A sequence that has a block's length and its bits is that block's sequence. -/
theorem eq_bitsOf {n : Nat} {bits : List Bool} {v : BitVec n} (hlen : bits.length = n)
    (h : ∀ i (hi : i < bits.length), bits[i] = v.getMsbD i) : bits = bitsOf v :=
  List.ext_getElem (by simpa using hlen) fun i hi _ => by rw [h i hi, getElem_bitsOf]

/-- Reading a block's bits back gives the block. -/
theorem ofBoolListBE_bitsOf {n : Nat} (v : BitVec n) : (BitVec.ofBoolListBE (bitsOf v)).setWidth n = v := by
  apply BitVec.eq_of_getMsbD_eq
  intro i _
  rw [BitVec.getMsbD_setWidth, BitVec.getMsbD_ofBoolListBE, getD_bitsOf, length_bitsOf]
  simp

/-! ### permute (R130) -/

theorem permuteFrom_cons_of_mem_range {bits : List Bool} {p : Nat} (hp : 1 ≤ p ∧ p ≤ bits.length) (table : List Nat)
    (j : Nat) (rest : List Nat) :
    permuteFrom bits table j (p :: rest) =
      (permuteFrom bits table (j + 1) rest).map (bits.getD (p - 1) false :: ·) := by
  rw [permuteFrom, if_pos hp]
  cases permuteFrom bits table (j + 1) rest <;> rfl

theorem permuteFrom_cons_of_not_mem_range {bits : List Bool} {p : Nat} (hp : ¬(1 ≤ p ∧ p ≤ bits.length))
    (table : List Nat) (j : Nat) (rest : List Nat) :
    permuteFrom bits table j (p :: rest) = .error (.indexOutOfRange table j p) := by
  rw [permuteFrom, if_neg hp]

/-- With every entry in range, each entry selects its bit. -/
theorem permuteFrom_eq_ok {bits : List Bool} (table : List Nat) {entries : List Nat}
    (h : ∀ p ∈ entries, 1 ≤ p ∧ p ≤ bits.length) (j : Nat) :
    permuteFrom bits table j entries = .ok (entries.map fun p => bits.getD (p - 1) false) := by
  induction entries generalizing j with
  | nil => rfl
  | cons p rest ih =>
    obtain ⟨hp, hrest⟩ := List.forall_mem_cons.mp h
    rw [permuteFrom_cons_of_mem_range hp, ih hrest]
    rfl

/-- The first entry out of range fails, under its number. -/
theorem permuteFrom_append_cons {bits : List Bool} (table : List Nat) {before : List Nat}
    (h : ∀ q ∈ before, 1 ≤ q ∧ q ≤ bits.length) {p : Nat} (hp : ¬(1 ≤ p ∧ p ≤ bits.length)) (after : List Nat) (j : Nat) :
    permuteFrom bits table j (before ++ p :: after) = .error (.indexOutOfRange table (j + before.length) p) := by
  induction before generalizing j with
  | nil => exact permuteFrom_cons_of_not_mem_range hp table j after
  | cons q rest ih =>
    obtain ⟨hq, hrest⟩ := List.forall_mem_cons.mp h
    rw [List.cons_append, permuteFrom_cons_of_mem_range hq, ih hrest, List.length_cons, Nat.add_assoc,
      Nat.add_comm 1]
    rfl

theorem permuteSeq_bitsOf {n m : Nat} (v : BitVec n) (T : Table n m) :
    permuteSeq (bitsOf v) T.entries = .ok (bitsOf (permute v T)) := by
  have hrange : ∀ p ∈ T.entries, 1 ≤ p ∧ p ≤ (bitsOf v).length := fun p hp => by
    simpa using T.mem_range hp
  rw [permuteSeq, permuteFrom_eq_ok _ hrange]
  congr 1
  apply eq_bitsOf (by rw [List.length_map, T.length_entries])
  intro i hi
  rw [List.length_map] at hi
  rw [List.getElem_map, getD_bitsOf, getMsbD_permute, dif_pos hi, bitAt]

/-- R130, R261: of the entries out of range the first is reported. -/
theorem permuteSeq_indexOutOfRange {bits : List Bool} {table : List Nat} (h : ∃ p ∈ table, p < 1 ∨ bits.length < p) :
    ∃ j p, 1 ≤ j ∧ table[j - 1]? = some p ∧ (p < 1 ∨ bits.length < p) ∧
      (∀ q ∈ table.take (j - 1), 1 ≤ q ∧ q ≤ bits.length) ∧
      permuteSeq bits table = .error (.indexOutOfRange table j p) := by
  obtain ⟨p, hfind⟩ : ∃ p, table.find? (fun p => decide (p < 1 ∨ bits.length < p)) = some p := by
    simpa [← Option.isSome_iff_exists] using h
  obtain ⟨hp, before, after, htable, hbefore⟩ := List.find?_eq_some_iff_append.mp hfind
  have hrange : ∀ q ∈ before, 1 ≤ q ∧ q ≤ bits.length := fun q hq => by
    have hgood : ¬(q < 1 ∨ bits.length < q) := by simpa using hbefore q hq
    omega
  have hbad : p < 1 ∨ bits.length < p := of_decide_eq_true hp
  have hfail := permuteFrom_append_cons table hrange (p := p) (by omega) after 1
  rw [← htable] at hfail
  exact ⟨1 + before.length, p, by omega, by simp [htable], hbad, by simpa [htable] using hrange, hfail⟩

/-! ### rotateLeft, xor (R131, R132) -/

/-- Both sides read index i from index (i + s) mod n. -/
theorem rotateLeftSeq_bitsOf {n s : Nat} (v : BitVec n) (hs : s < n) :
    rotateLeftSeq (bitsOf v) s = .ok (bitsOf (rotl v s)) := by
  have hlt : s < (bitsOf v).length := by simpa using hs
  rw [rotateLeftSeq, if_pos hlt, ← List.rotate_eq_drop_append_take hlt.le]
  congr 1
  apply eq_bitsOf (by simp)
  intro i hi
  rw [List.getElem_rotate, getElem_bitsOf, length_bitsOf, getMsbD_rotl _ _ (by simpa using hi)]

theorem rotateLeftSeq_of_length_le {bits : List Bool} {s : Nat} (h : bits.length ≤ s) :
    rotateLeftSeq bits s = .error (.rotateAmountOutOfRange s bits.length) := if_neg (by omega)

theorem xorSeq_bitsOf {n : Nat} (a b : BitVec n) : xorSeq (bitsOf a) (bitsOf b) = .ok (bitsOf (a ^^^ b)) := by
  rw [xorSeq, if_pos (by simp)]
  congr 1
  apply eq_bitsOf (by simp)
  intro i hi
  rw [List.getElem_zipWith, getElem_bitsOf, getElem_bitsOf, BitVec.getMsbD_xor]

theorem xorSeq_of_length_ne {a b : List Bool} (h : a.length ≠ b.length) :
    xorSeq a b = .error (.lengthMismatch .xor a.length b.length) := if_neg h

/-! ### bitsToBytes (R136) -/

/-- Eight bits from index 8k on are byte k. -/
theorem take_drop_bitsOf {n k : Nat} (v : BitVec (8 * n)) (hk : k < n) :
    ((bitsOf v).drop (8 * k)).take 8 = bitsOf (v.extractLsb' (8 * (n - 1 - k)) 8) := by
  have hlen : (((bitsOf v).drop (8 * k)).take 8).length = 8 := by
    rw [List.length_take, List.length_drop, length_bitsOf]
    omega
  apply eq_bitsOf hlen
  intro i hi
  rw [List.getElem_take, List.getElem_drop, getElem_bitsOf, getMsbD_byte v hk (hlen ▸ hi)]

theorem bitsToBytesSeq_bitsOf {n : Nat} (v : BitVec (8 * n)) : bitsToBytesSeq (bitsOf v) = .ok (bitsToBytes v) := by
  rw [bitsToBytesSeq, length_bitsOf, if_pos (Nat.mul_mod_right 8 n), Nat.mul_div_cancel_left n (by decide), bitsToBytes]
  congr 1
  apply List.map_congr_left
  intro k hk
  rw [take_drop_bitsOf v (List.mem_range.mp hk), ofBoolListBE_bitsOf]

theorem bitsToBytesSeq_of_length_mod_ne {bits : List Bool} (h : bits.length % 8 ≠ 0) :
    bitsToBytesSeq bits = .error (.lengthMismatch .bitsToBytes (8 * (bits.length / 8 + 1)) bits.length) := if_neg h

/-! ### A sequence as a block, and what takes one (R157, R177, R199, R260) -/

theorem blockOfSeq_bitsOf {n : Nat} (op : SeqOp) (v : BitVec n) : blockOfSeq n op (bitsOf v) = .ok v := by
  rw [blockOfSeq, if_pos (length_bitsOf v), ofBoolListBE_bitsOf]

theorem blockOfSeq_of_length_eq {n : Nat} (op : SeqOp) {bits : List Bool} (h : bits.length = n) :
    blockOfSeq n op bits = .ok ((BitVec.ofBoolListBE bits).setWidth n) := if_pos h

theorem blockOfSeq_of_length_ne {n : Nat} (op : SeqOp) {bits : List Bool} (h : bits.length ≠ n) :
    blockOfSeq n op bits = .error (.lengthMismatch op n bits.length) := if_neg h

theorem applySeq_bitsOf (r : HalfBlock) (k : RoundKey) : applySeq (bitsOf r) (bitsOf k) = .ok (apply r k) := by
  rw [applySeq, blockOfSeq_bitsOf, blockOfSeq_bitsOf]

theorem applySeq_of_half_length_ne {r : List Bool} (h : r.length ≠ 32) (k : List Bool) :
    applySeq r k = .error (.lengthMismatch .roundHalf 32 r.length) := by
  rw [applySeq, blockOfSeq_of_length_ne _ h]

/-- The half-block is checked first, so the key's length is reported only behind a good half-block. -/
theorem applySeq_of_key_length_ne {r k : List Bool} (hr : r.length = 32) (hk : k.length ≠ 48) :
    applySeq r k = .error (.lengthMismatch .roundKey 48 k.length) := by
  rw [applySeq, blockOfSeq_of_length_eq _ hr, blockOfSeq_of_length_ne _ hk]

theorem generateSeq_bitsOf (key : Block) : generateSeq (bitsOf key) = .ok (generate key) := by
  rw [generateSeq, blockOfSeq_bitsOf]

theorem generateSeq_of_length_ne {key : List Bool} (h : key.length ≠ 64) :
    generateSeq key = .error (.lengthMismatch .keyEntry 64 key.length) := by
  rw [generateSeq, blockOfSeq_of_length_ne _ h]

theorem runSeq_bitsOf (block : Block) (rk : Vector RoundKey 16) (dir : Dir) :
    runSeq (bitsOf block) rk dir = .ok (run block rk dir) := by
  rw [runSeq, blockOfSeq_bitsOf]

theorem runSeq_of_length_ne {block : List Bool} (h : block.length ≠ 64) (rk : Vector RoundKey 16) (dir : Dir) :
    runSeq block rk dir = .error (.lengthMismatch .cipherEntry 64 block.length) := by
  rw [runSeq, blockOfSeq_of_length_ne _ h]

/-! ### The obligations -/

/-- Settles O59. -/
theorem sequencesAgree : Obligations.SequencesAgree :=
  ⟨fun _ _ => permuteSeq_bitsOf, fun _ _ => rotateLeftSeq_bitsOf, fun _ => xorSeq_bitsOf, fun _ => bitsToBytesSeq_bitsOf,
    applySeq_bitsOf, fun key block rk dir => ⟨generateSeq_bitsOf key, runSeq_bitsOf block rk dir⟩⟩

/-- Settles O60. -/
theorem sequencesFailFast : Obligations.SequencesFailFast :=
  ⟨fun _ _ => permuteSeq_indexOutOfRange,
    fun _ _ => rotateLeftSeq_of_length_le,
    fun _ _ => xorSeq_of_length_ne,
    fun _ h => ⟨_, bitsToBytesSeq_of_length_mod_ne h⟩,
    fun _ k => ⟨fun hr => applySeq_of_half_length_ne hr k, applySeq_of_key_length_ne⟩,
    fun _ rk dir h => ⟨generateSeq_of_length_ne h, runSeq_of_length_ne h rk dir⟩⟩

end Sys2Proof.Machine
end

section
/-! SUPPORT. The key schedule's obligations (41_key_schedule.md): round key r in closed form, from the PC1 output of the
key and the sum of the first r shifts, and what follows from it; with them the completion of KEYGEN. -/

namespace Sys2Proof.Machine

/-! ### Rotations that change nothing (R131) -/

/-- A rotation by a number of full turns. -/
theorem rotl_eq_self {n s : Nat} (v : BitVec n) (h : s % n = 0) : rotl v s = v := by
  apply BitVec.eq_of_getMsbD_eq
  intro i hi
  rw [getMsbD_rotl v s hi, Nat.add_mod, h, Nat.add_zero, Nat.mod_mod, Nat.mod_eq_of_lt hi]

theorem zero_rotl {n : Nat} (s : Nat) : rotl (0#n) s = 0#n := by
  apply BitVec.eq_of_getMsbD_eq
  intro i hi
  rw [getMsbD_rotl _ s hi, BitVec.getMsbD_zero, BitVec.getMsbD_zero]

theorem allOnes_rotl {n : Nat} (s : Nat) : rotl (BitVec.allOnes n) s = BitVec.allOnes n := by
  rw [← BitVec.not_zero, rotl_not, zero_rotl]

/-- A key half that is all-zero or all-one (R161). -/
abbrev ConstantHalf (c : KeyHalf) : Prop := c = 0#28 ∨ c = BitVec.allOnes 28

theorem rotl_constantHalf {c : KeyHalf} (h : ConstantHalf c) (s : Nat) : rotl c s = c := by
  rcases h with rfl | rfl
  · exact zero_rotl s
  · exact allOnes_rotl s

/-! ### The halves and the round key of round r in closed form (R159) -/

theorem sum_take_shift_succ (r : Nat) :
    (ROM.SHIFT.take (r + 1)).sum = (ROM.SHIFT.take r).sum + ROM.shift (r + 1) := by
  rw [List.take_add_one, List.sum_append, ROM.shift, Nat.add_sub_cancel, List.getD_eq_getElem?_getD]
  cases ROM.SHIFT[r]? <;> simp

/-- Each half of round r is its initial half rotated by the first r shifts together. -/
theorem scheduleHalves_eq_rotl (key : Block) (r : Nat) :
    scheduleHalves key r =
      (rotl (keyHalves (permute key ROM.PC1)).1 (ROM.SHIFT.take r).sum,
        rotl (keyHalves (permute key ROM.PC1)).2 (ROM.SHIFT.take r).sum) := by
  induction r with
  | zero => rw [scheduleHalves, List.take_zero, List.sum_nil, rotl_eq_self _ rfl, rotl_eq_self _ rfl]
  | succ r ih => rw [scheduleHalves, ih, rotl_rotl, rotl_rotl, sum_take_shift_succ]

theorem keyAt_generate (key : Block) {r : Nat} (h1 : 1 ≤ r) (h16 : r ≤ 16) :
    keyAt (generate key) r = roundKey key r := by
  obtain ⟨i, rfl⟩ := Nat.exists_eq_add_of_le' h1
  rw [keyAt_succ _ i h16, getElem_generate key i h16]

/-- Where the halves are the initial ones, the round key is PC2 of the PC1 output. -/
theorem roundKey_of_scheduleHalves_eq {key : Block} {r : Nat}
    (h : scheduleHalves key r = keyHalves (permute key ROM.PC1)) :
    roundKey key r = permute (permute key ROM.PC1) ROM.PC2 := by
  rw [roundKey, h, keyHalves_join]

/-- Sixteen rounds rotate by 28, a full turn (R160). -/
theorem scheduleHalves_sixteen (key : Block) : scheduleHalves key 16 = keyHalves (permute key ROM.PC1) := by
  have hsum : (ROM.SHIFT.take 16).sum = 28 := rom_shiftsSum.2
  rw [scheduleHalves_eq_rotl, hsum, rotl_eq_self _ rfl, rotl_eq_self _ rfl]

/-! ### Constant halves, complements, and keys with the same PC1 output (R161, R162) -/

theorem scheduleHalves_of_constantHalf {key : Block} (hC : ConstantHalf (keyHalves (permute key ROM.PC1)).1)
    (hD : ConstantHalf (keyHalves (permute key ROM.PC1)).2) (r : Nat) :
    scheduleHalves key r = keyHalves (permute key ROM.PC1) := by
  rw [scheduleHalves_eq_rotl, rotl_constantHalf hC, rotl_constantHalf hD]

/-- Constant halves give one round key sixteen times. -/
theorem getElem_generate_of_constantHalf {key : Block} (hC : ConstantHalf (keyHalves (permute key ROM.PC1)).1)
    (hD : ConstantHalf (keyHalves (permute key ROM.PC1)).2) (i : Fin 16) :
    (generate key)[i] = permute (permute key ROM.PC1) ROM.PC2 :=
  (getElem_generate key i i.isLt).trans
    (roundKey_of_scheduleHalves_eq (scheduleHalves_of_constantHalf hC hD (i + 1)))

/-- The four keys that R161 lists, by evaluation of PC1 on each; `decide` on the quantifier itself would try all 2^64
blocks. -/
theorem constantHalf_listedKeys :
    ∀ key ∈ [0x0000000000000000#64, 0xFFFFFFFFFFFFFFFF#64, 0x1F1F1F1F0E0E0E0E#64, 0xE0E0E0E0F1F1F1F1#64],
      ConstantHalf (keyHalves (permute key ROM.PC1)).1 ∧ ConstantHalf (keyHalves (permute key ROM.PC1)).2 := by
  rw [List.forall_mem_cons, List.forall_mem_cons, List.forall_mem_cons, List.forall_mem_singleton]
  decide +kernel

/-- Key 0 gives sixteen zero keys. -/
theorem getElem_generate_zero (i : Fin 16) : (generate 0)[i] = 0 := by
  obtain ⟨hC, hD⟩ := constantHalf_listedKeys 0 List.mem_cons_self
  rw [getElem_generate_of_constantHalf hC hD]
  exact (congrArg (permute · ROM.PC2) (permute_zero ROM.PC1)).trans (permute_zero ROM.PC2)

theorem keyHalves_not (cd : BitVec 56) : keyHalves (~~~cd) = (~~~(keyHalves cd).1, ~~~(keyHalves cd).2) :=
  calc keyHalves (~~~cd)
    _ = split (~~~((split (n := 28) cd).1 ++ (split (n := 28) cd).2)) := by rw [split_join, keyHalves]
    _ = (~~~(keyHalves cd).1, ~~~(keyHalves cd).2) := by rw [BitVec.not_append, split_append, keyHalves]

theorem scheduleHalves_not (key : Block) (r : Nat) :
    scheduleHalves (~~~key) r = (~~~(scheduleHalves key r).1, ~~~(scheduleHalves key r).2) := by
  rw [scheduleHalves_eq_rotl, scheduleHalves_eq_rotl, permute_not, keyHalves_not, rotl_not, rotl_not]

theorem roundKey_not (key : Block) (r : Nat) : roundKey (~~~key) r = ~~~roundKey key r := by
  rw [roundKey, roundKey, scheduleHalves_not, ← permute_not, BitVec.not_append]

/-- The round keys read the key through PC1 alone. -/
theorem generate_congr {k k' : Block} (h : permute k ROM.PC1 = permute k' ROM.PC1) : generate k = generate k' := by
  apply Vector.ext
  intro i hi
  rw [getElem_generate, getElem_generate, roundKey, roundKey, scheduleHalves_eq_rotl, scheduleHalves_eq_rotl, h]

/-- PC1 names no parity position (R75 item 3). -/
theorem pc1_mod_eight_ne_zero : ∀ p ∈ ROM.PC1.entries, p % 8 ≠ 0 := by decide

theorem generate_eq_of_bitAt_eq {k k' : Block}
    (h : ∀ p, 1 ≤ p → p ≤ 64 → p % 8 ≠ 0 → bitAt k p = bitAt k' p) : generate k = generate k' := by
  apply generate_congr
  apply permute_congr
  intro p hp
  obtain ⟨h1, h64⟩ := ROM.PC1.mem_range hp
  exact h p h1 h64 (pc1_mod_eight_ne_zero p hp)

/-! ### A command reads KEY_R through its round keys alone (R162) -/

/-- RUN does not read KEY_R (R203). -/
theorem runCommand_keyR {dir : Dir} {s t : State} (h : runCommand dir s = .next t) (k : Block) :
    runCommand dir { s with keyR := k } = .next { t with keyR := k } := by
  rw [runCommand] at h
  split at h <;> rename_i hv <;> cases h
  · exact if_pos hv
  · exact if_neg hv

theorem exec_keyR_of_generate_eq {i : Instr} {s t : State} {k : Block} (hk : generate s.keyR = generate k)
    (h : exec i s = .next t) : exec i { s with keyR := k } = .next { t with keyR := k } := by
  cases i with
  | keygen d =>
    cases h
    rw [hk]
    rfl
  | runEnc => exact runCommand_keyR h k
  | runDec => exact runCommand_keyR h k
  | decrypt d =>
    cases h
    rw [hk]
    rfl
  | rsv d =>
    cases h
    rfl

/-! ### The obligations -/

/-- Settles O11: `scheduleHalves_eq_rotl`, its amounts taken modulo the width. -/
theorem scheduleIsMonotonic : Obligations.ScheduleIsMonotonic := by
  intro key r h16
  refine ⟨?_, fun h1 => keyAt_generate key h1 h16⟩
  rw [rotl_mod, rotl_mod]
  exact scheduleHalves_eq_rotl key r

/-- Settles O12: the sixteen rotations make one full turn. -/
theorem scheduleFullCycle : Obligations.ScheduleFullCycle := fun key =>
  ⟨scheduleHalves_sixteen key,
    (keyAt_generate key (by decide) le_rfl).trans (roundKey_of_scheduleHalves_eq (scheduleHalves_sixteen key))⟩

/-- Settles O13; key 0, whose sixteen keys are all zero, denies distinctness. -/
theorem roundKeyLaws : Obligations.RoundKeyLaws := by
  have hconstant : ∀ key : Block, ConstantHalf (keyHalves (permute key ROM.PC1)).1 →
      ConstantHalf (keyHalves (permute key ROM.PC1)).2 → ∀ i j : Fin 16, (generate key)[i] = (generate key)[j] :=
    fun key hC hD i j =>
      (getElem_generate_of_constantHalf hC hD i).trans (getElem_generate_of_constantHalf hC hD j).symm
  refine ⟨fun key => (generate key).length_toList, hconstant, ?listed, ⟨permute_zero ROM.PC1, getElem_generate_zero⟩,
    ?complement, ?distinct⟩
  case listed =>
    intro key hkey
    obtain ⟨hC, hD⟩ := constantHalf_listedKeys key hkey
    exact hconstant key hC hD
  case complement =>
    intro key i
    exact (getElem_generate _ i i.isLt).trans
      ((roundKey_not key _).trans (congrArg (~~~·) (getElem_generate key i i.isLt).symm))
  case distinct =>
    intro h
    exact h 0 0 1 (by decide) ((getElem_generate_zero 0).trans (getElem_generate_zero 1).symm)

/-- Settles O14: PC1 drops the parity positions, and a command reads KEY_R through `generate` alone. -/
theorem parityPositionsDoNotMatter : Obligations.ParityPositionsDoNotMatter := by
  intro k k' h
  have hgen := generate_eq_of_bitAt_eq h
  exact ⟨hgen, fun i s t he => exec_keyR_of_generate_eq (s := { s with keyR := k }) hgen he⟩

/-- Settles O25: the two state updates of KEYGEN, written as one. -/
theorem keygenCompletes : Obligations.KeygenCompletes := by
  intro d s
  rw [exec, execKeygen, State.writeKeys, State.complete, errNone]

end Sys2Proof.Machine
end

section
/-! SUPPORT. The round function's obligations (42_round_function.md): the eight lanes (R178) and the laws of `apply`
(R179). -/

namespace Sys2Proof.Machine

/-! ### Lanes (R172 to R178) -/

/-- A group is its six bits (R172). -/
theorem group_congr {x y : RoundKey} {i : Nat} (h1 : 1 ≤ i) (h8 : i ≤ 8)
    (h : ∀ j < 6, x.getMsbD (6 * (i - 1) + j) = y.getMsbD (6 * (i - 1) + j)) : group x i = group y i := by
  apply BitVec.eq_of_getMsbD_eq
  intro j hj
  rw [getMsbD_group x h1 h8 hj, getMsbD_group y h1 h8 hj, h j hj]

/-- Bit j of lane i, in sequence order (R175). -/
theorem getMsbD_substitute (x : RoundKey) {i j : Nat} (h1 : 1 ≤ i) (h8 : i ≤ 8) (hj : j < 4) :
    (substitute x).getMsbD (4 * (i - 1) + j) = (lane i (group x i)).getMsbD j := by
  have hle : 32 - 4 * i + 4 - j ≤ 32 := by omega
  have hpos : 32 - (32 - 4 * i + 4 - j) = 4 * (i - 1) + j := by omega
  rw [← extractLsb'_substitute x h1 h8]
  simp [hj, hle, hpos]

/-! ### The laws of `apply` (R177, R179) -/

/-- The XOR result (R171). -/
theorem apply_xored (r : HalfBlock) (k : RoundKey) : (apply r k).xored = permute r ROM.E ^^^ k := rfl

/-- The S-box output is a function of the XOR result (R175, R179 item 1). -/
theorem apply_sboxOut (r : HalfBlock) (k : RoundKey) : (apply r k).sboxOut = substitute (apply r k).xored := rfl

/-- The f output is the S-box output permuted by P (R176). -/
theorem apply_fOut (r : HalfBlock) (k : RoundKey) : (apply r k).fOut = permute (apply r k).sboxOut ROM.P := rfl

theorem apply_sboxOut_congr {r r' : HalfBlock} {k k' : RoundKey} (h : (apply r k).xored = (apply r' k').xored) :
    (apply r k).sboxOut = (apply r' k').sboxOut := by
  rw [apply_sboxOut, apply_sboxOut, h]

theorem apply_fOut_congr {r r' : HalfBlock} {k k' : RoundKey} (h : (apply r k).xored = (apply r' k').xored) :
    (apply r k).fOut = (apply r' k').fOut := by
  rw [apply_fOut, apply_fOut, apply_sboxOut_congr h]

/-- The two complements cancel in the XOR result, E passing the one on R through (R179 item 2). -/
theorem apply_xored_not (r : HalfBlock) (k : RoundKey) : (apply (~~~r) (~~~k)).xored = (apply r k).xored := by
  rw [apply_xored, apply_xored, permute_not, ← BitVec.not_xor_left, ← BitVec.not_xor_right, BitVec.not_not]

theorem apply_fOut_not (r : HalfBlock) (k : RoundKey) : (apply (~~~r) (~~~k)).fOut = (apply r k).fOut :=
  apply_fOut_congr (apply_xored_not r k)

/-! ### The obligations -/

/-- Settles O17: the nibble is lane i of group i, and the group is the six bits. -/
theorem sboxLanesAreIndependent : Obligations.SboxLanesAreIndependent := by
  intro x y i h1 h8 h j hj
  rw [getMsbD_substitute x h1 h8 hj, getMsbD_substitute y h1 h8 hj, group_congr h1 h8 h]

/-- Settles O18: both outputs are functions of the XOR result, which the two complements leave as it is. -/
theorem roundFunctionLaws : Obligations.RoundFunctionLaws := by
  refine ⟨?xorAlone, fun r k => ⟨apply_xored_not r k, apply_fOut_not r k⟩, ?equalInputs⟩
  case xorAlone =>
    intro r r' k k' h
    exact ⟨apply_sboxOut_congr h, apply_fOut_congr h⟩
  case equalInputs =>
    intro r r' k k' hr hk
    rw [hr, hk]

end Sys2Proof.Machine
end

section
/-! SUPPORT. The Feistel cipher's obligations (43_feistel_cipher.md): the records of the trace, the same rounds walked
backwards in the opposite direction, the symmetries of a run in its keys and in complements, the completion of RUN, and
ENCRYPT followed by DECRYPT on the machine. -/

namespace Sys2Proof

/-- The direction that undoes a run (R202). -/
def Dir.opposite : Dir → Dir
  | .encrypt => .decrypt
  | .decrypt => .encrypt

end Sys2Proof

namespace Sys2Proof.Machine

/-! ### The key of a round (R191) -/

theorem keyFor_encrypt_succ (rk : Vector RoundKey 16) (i : Nat) (h : i < 16) : keyFor rk .encrypt (i + 1) = rk[i] :=
  keyAt_succ rk i h

theorem keyFor_decrypt_succ (rk : Vector RoundKey 16) (i : Nat) (h : i < 16) :
    keyFor rk .decrypt (i + 1) = rk[15 - i] := by
  have hr : 17 - (i + 1) = 15 - i + 1 := by omega
  rw [keyFor, hr, keyAt_succ rk (15 - i) (by omega)]

/-- The opposite direction takes the same keys in reverse order. -/
theorem keyFor_opposite (rk : Vector RoundKey 16) (dir : Dir) {r : Nat} (h16 : r ≤ 16) :
    keyFor rk dir.opposite r = keyFor rk dir (17 - r) := by
  cases dir with
  | encrypt => rfl
  | decrypt =>
    have hr : 17 - (17 - r) = r := by omega
    simp only [Dir.opposite, keyFor, hr]

/-- A run reads the round keys in the order of its direction, and nothing else of them. -/
theorem halves_congr (b : Block) {rk rk' : Vector RoundKey 16} {dir dir' : Dir}
    (h : ∀ i < 16, keyFor rk dir (i + 1) = keyFor rk' dir' (i + 1)) {r : Nat} (h16 : r ≤ 16) :
    halves b rk dir r = halves b rk' dir' r := by
  induction r with
  | zero => rfl
  | succ r ih => rw [halves, halves, ih (by omega), h r h16]

theorem run_congr (b : Block) {rk rk' : Vector RoundKey 16} {dir dir' : Dir}
    (h : ∀ i < 16, keyFor rk dir (i + 1) = keyFor rk' dir' (i + 1)) : run b rk dir = run b rk' dir' := by
  have htrace : (run b rk dir).trace = (run b rk' dir').trace := by
    apply Vector.ext
    intro i hi
    rw [getElem_run_trace, getElem_run_trace, halves_congr b h hi.le, h i hi]
  rw [run, run, RunResult.mk.injEq]
  exact ⟨by rw [halves_congr b h le_rfl], htrace⟩

/-- A schedule that is another's reverse, decrypting, gives the keys that the other gives encrypting (R205). -/
theorem run_encrypt_eq_run_decrypt_reverse {rk rk' : Vector RoundKey 16} (h : ∀ i : Fin 16, rk'[i] = rk[15 - i.val])
    (b : Block) : run b rk .encrypt = run b rk' .decrypt := by
  apply run_congr
  intro i hi
  have hrev : 15 - (15 - i) = i := by omega
  calc keyFor rk .encrypt (i + 1)
    _ = rk[15 - (15 - i)] := by simp only [hrev, keyFor_encrypt_succ rk i hi]
    _ = rk'[15 - i] := (h ⟨15 - i, by omega⟩).symm
    _ = keyFor rk' .decrypt (i + 1) := (keyFor_decrypt_succ rk' i hi).symm

/-! ### The opposite direction undoes a run (R202, R204) -/

/-- The pre-output of a pair is the pair exchanged, joined (R109). -/
theorem halfBlocks_preOutput (lr : HalfBlock × HalfBlock) : halfBlocks (preOutput lr) = lr.swap :=
  split_append (n := 32) lr.2 lr.1

theorem preOutput_swap_halfBlocks (x : Block) : preOutput (halfBlocks x).swap = x := halfBlocks_join x

/-- A round undoes itself between two exchanges of the halves: the f output depends on the half that a round keeps. -/
theorem feistelUpdate_swap_feistelUpdate (lr : HalfBlock × HalfBlock) (k : RoundKey) :
    feistelUpdate (feistelUpdate lr k).swap k = lr.swap :=
  Prod.ext rfl (by simp [feistelUpdate])

/-- The halves of the opposite run are those of the run, backwards and exchanged. -/
theorem halves_opposite (p : Block) (ks : Vector RoundKey 16) (dir : Dir) {r : Nat} (h16 : r ≤ 16) :
    halves (run p ks dir).output ks dir.opposite r = (halves p ks dir (16 - r)).swap := by
  induction r with
  | zero =>
    have hip : permute (run p ks dir).output ROM.IP = preOutput (halves p ks dir 16) :=
      (initialAndFinalPermutationsInvert _).2
    rw [halves, hip, halfBlocks_preOutput]
  | succ r ih =>
    have hhalves : 16 - r = 16 - (r + 1) + 1 := by omega
    have hkey : 17 - (r + 1) = 16 - (r + 1) + 1 := by omega
    rw [halves, ih (by omega), keyFor_opposite ks dir h16, hkey, hhalves, halves, feistelUpdate_swap_feistelUpdate]

theorem run_opposite_output (p : Block) (ks : Vector RoundKey 16) (dir : Dir) :
    (run (run p ks dir).output ks dir.opposite).output = p := by
  rw [run, halves_opposite p ks dir le_rfl, Nat.sub_self, halves, preOutput_swap_halfBlocks]
  exact (initialAndFinalPermutationsInvert p).1

/-! ### Complements (R206) -/

theorem split_not {n : Nat} (v : BitVec (n + n)) : split (~~~v) = (~~~(split v).1, ~~~(split v).2) :=
  calc split (~~~v)
    _ = split (~~~((split v).1 ++ (split v).2)) := by rw [split_join]
    _ = (~~~(split v).1, ~~~(split v).2) := by rw [BitVec.not_append, split_append]

theorem halfBlocks_not (x : Block) : halfBlocks (~~~x) = (~~~(halfBlocks x).1, ~~~(halfBlocks x).2) :=
  split_not (n := 32) x

theorem preOutput_not (l r : HalfBlock) : preOutput (~~~l, ~~~r) = ~~~preOutput (l, r) := BitVec.not_append.symm

theorem feistelUpdate_not (l r : HalfBlock) (k : RoundKey) :
    feistelUpdate (~~~l, ~~~r) (~~~k) = (~~~(feistelUpdate (l, r) k).1, ~~~(feistelUpdate (l, r) k).2) := by
  simp only [feistelUpdate, apply_fOut_not, BitVec.not_xor_left]

theorem getElem_generate_not (k : Block) (i : Nat) (h : i < 16) : (generate (~~~k))[i] = ~~~(generate k)[i] := by
  rw [getElem_generate, getElem_generate, roundKey_not]

theorem keyFor_generate_not (k : Block) (dir : Dir) (i : Nat) (h : i < 16) :
    keyFor (generate (~~~k)) dir (i + 1) = ~~~keyFor (generate k) dir (i + 1) := by
  cases dir with
  | encrypt => rw [keyFor_encrypt_succ _ i h, keyFor_encrypt_succ _ i h, getElem_generate_not]
  | decrypt => rw [keyFor_decrypt_succ _ i h, keyFor_decrypt_succ _ i h, getElem_generate_not]

theorem halves_not (b k : Block) (dir : Dir) {r : Nat} (h16 : r ≤ 16) :
    halves (~~~b) (generate (~~~k)) dir r =
      (~~~(halves b (generate k) dir r).1, ~~~(halves b (generate k) dir r).2) := by
  induction r with
  | zero => rw [halves, permute_not, halfBlocks_not, halves]
  | succ r ih => rw [halves, ih (by omega), keyFor_generate_not k dir r h16, feistelUpdate_not, halves]

/-! ### The keys of R205 -/

/-- The two keys have ones only at parity positions, which PC1 drops: their round keys are those of key 0. -/
theorem permute_pc1_eq_permute_zero :
    ∀ key ∈ [0x0101010101010101#64, 0x0000000000000000#64], permute key ROM.PC1 = permute 0 ROM.PC1 := by
  rw [List.forall_mem_cons, List.forall_mem_singleton]
  decide +kernel

/-- The two keys of the pair have schedules that are each other's reverse, by evaluation of their sixteen round keys. -/
theorem roundKey_reversedPair :
    ∀ i < 16, roundKey 0xFE01FE01FE01FE01 (i + 1) = roundKey 0x01FE01FE01FE01FE (15 - i + 1) := by
  decide +kernel

/-! ### RUN and the ENCRYPT script on the machine (R203, R115) -/

/-- Without a key schedule RUN completes with NO_KEYS (R263). -/
theorem runCommand_of_rkValid_eq_false {s : State} (hv : s.rkValid = false) (dir : Dir) :
    runCommand dir s = .next (s.complete errNoKeys) := if_neg (Bool.eq_false_iff.mp hv)

/-- ENCRYPT: KEYGEN leaves an idle core with valid keys, so the run that follows writes its result (R203). -/
theorem runScript_encryptScript_ended {s : State} (hf : s.fault = none) (hb : s.busy = false) (n : Nat)
    (k p key block : Block) :
    (runScript n key block s (encryptScript k p)).ended =
      .next ((((afterKeygen s k p).capture k p (cmdCode .runEnc)).writeResult
        (run p (generate k) .encrypt)).complete errNone) := by
  have hkeygen := runScript_start_wait hf hb (key := k) (block := p) (m := .keygen) rfl n [.start .runEnc, .wait]
  have hrun := runScript_start_wait (s := afterKeygen s k p) hf rfl (key := k) (block := p) (m := .runEnc)
    (runCommand_of_rkValid (s := (afterKeygen s k p).capture k p (cmdCode .runEnc)) rfl .encrypt) n []
  exact congrArg ScriptRun.ended (hkeygen.trans hrun)

section
variable {s : State} (hf : s.fault = none) (hb : s.busy = false)
include hf hb

/-- The host moves of ENCRYPT leave an idle core that shows the encryption (R115, R229). -/
theorem core_run_encryptScript (k p key block : Block) :
    ∃ t, Sys2Proof.core.run 4 { s with inputs := scriptMoves key block (encryptScript k p) } = .next t ∧
      t.fault = none ∧ t.busy = false ∧ ∀ n, blockO n t = (run p (generate k) .encrypt).output := by
  refine ⟨_, runScript_ended _ (runScript_encryptScript_ended hf hb 0 k p key block) hf, hf, rfl,
    fun n => blockO_of_shows ?_ n⟩
  exact shows_eq_true_iff.mpr ⟨hf, rfl, rfl⟩

/-- The host moves of DECRYPT leave a core that shows the decryption (R227, R229). -/
theorem core_run_decryptScript (k c key block : Block) :
    ∃ t, Sys2Proof.core.run 2 { s with inputs := scriptMoves key block (decryptScript k c) } = .next t ∧
      ∀ n, blockO n t = (run c (generate k) .decrypt).output := by
  refine ⟨_, runScript_ended _ (runScript_decryptScript_ended hf hb 0 k c key block) hf, fun n => blockO_of_shows ?_ n⟩
  exact shows_eq_true_iff.mpr ⟨hf, rfl, rfl⟩

end

/-! ### The obligations -/

/-- Settles O19: each field of `snapshot`, with the key that `keyFor` takes from the schedule. -/
theorem roundSnapshot : Obligations.RoundSnapshot := by
  intro block rk dir i t ht
  rw [Fin.getElem_fin, getElem_run_trace block rk dir i i.isLt] at ht
  subst ht
  refine ⟨?round, ?key, rfl, rfl, rfl, rfl, rfl, rfl, rfl, rfl⟩
  case round => exact (BitVec.toNat_ofNat _ _).trans (Nat.mod_eq_of_lt (by omega))
  case key =>
    cases dir with
    | encrypt => exact keyFor_encrypt_succ rk i i.isLt
    | decrypt => exact keyFor_decrypt_succ rk i i.isLt

/-- Settles O20: record i + 1 is made of the halves that record i ends with, and IP's halves joined are its output. -/
theorem traceChains : Obligations.TraceChains := by
  intro block rk dir out hout
  subst hout
  refine ⟨fun i h => ?links, fun i => ?update, ?first, ?last⟩
  case links =>
    rw [Fin.getElem_fin, getElem_run_trace block rk dir (i + 1) h, getElem_run_trace block rk dir i i.isLt]
    exact ⟨rfl, rfl⟩
  case update =>
    rw [Fin.getElem_fin, getElem_run_trace block rk dir i i.isLt]
    exact ⟨rfl, rfl⟩
  case first =>
    rw [getElem_run_trace block rk dir 0 (by decide)]
    exact halfBlocks_join (permute block ROM.IP)
  case last =>
    rw [getElem_run_trace block rk dir 15 (by decide)]
    rfl

/-- Settles O21: the opposite run walks the halves back to those of `p`. -/
theorem runRoundTrips : Obligations.RunRoundTrips := fun p ks =>
  ⟨run_opposite_output p ks .encrypt, run_opposite_output p ks .decrypt⟩

/-- Settles O22: `halves_opposite`, and from it that both records apply f to one half with one key. -/
theorem roundStatesCorrespond : Obligations.RoundStatesCorrespond := by
  intro p c ks hc
  subst hc
  refine ⟨fun r h16 => halves_opposite p ks .encrypt h16, fun i => ?_⟩
  have hkey : keyFor ks .decrypt (i + 1) = keyFor ks .encrypt (15 - i.val + 1) :=
    (keyFor_decrypt_succ ks i i.isLt).trans (keyFor_encrypt_succ ks (15 - i) (by omega)).symm
  have hhalf : (halves (run p ks .encrypt).output ks .decrypt i).2 = (halves p ks .encrypt (15 - i)).2 := by
    have hsucc : 16 - i.val = 15 - i.val + 1 := by omega
    have hwalk : halves (run p ks .encrypt).output ks .decrypt i = (halves p ks .encrypt (15 - i + 1)).swap :=
      hsucc ▸ halves_opposite p ks .encrypt i.isLt.le
    rw [hwalk, halves, Prod.snd_swap, feistelUpdate]
  rw [Fin.getElem_fin, getElem_run_trace _ ks .decrypt i i.isLt, getElem_run_trace p ks .encrypt (15 - i) (by omega)]
  simp only [snapshot, hkey, hhalf, and_self]

/-- Settles O23: a schedule that is its own reverse is a case of two that are each other's. -/
theorem directionSymmetricKeys : Obligations.DirectionSymmetricKeys := by
  refine ⟨fun rk => run_encrypt_eq_run_decrypt_reverse, fun rk rk' => run_encrypt_eq_run_decrypt_reverse,
    ?selfReverse, ?reversedPair⟩
  case selfReverse =>
    intro key hkey i
    rw [generate_congr (permute_pc1_eq_permute_zero key hkey)]
    exact (getElem_generate_zero i).trans (getElem_generate_zero ⟨15 - i, by omega⟩).symm
  case reversedPair =>
    intro i
    rw [Fin.getElem_fin, getElem_generate, getElem_generate]
    exact roundKey_reversedPair i i.isLt

/-- Settles O24: both halves stay complements in every round, and the swap and FP pass complements on. -/
theorem runComplements : Obligations.RunComplements := by
  intro b k dir
  rw [run, run, halves_not b k dir le_rfl, preOutput_not, permute_not]

/-- Settles O56: the block that ENCRYPT leaves on the port is the encryption, which the run of DECRYPT undoes. -/
theorem encryptThenDecryptRestores : Obligations.EncryptThenDecryptRestores := by
  intro s k p key block hf hb
  obtain ⟨t, hrun, hft, hbt, hshown⟩ := core_run_encryptScript hf hb k p key block
  refine ⟨t, hrun, fun n => ?_⟩
  obtain ⟨u, hrun', hshown'⟩ := core_run_decryptScript hft hbt k (blockO n t) key block
  refine ⟨u, hrun', fun m => ?_⟩
  rw [hshown' m, hshown n]
  exact run_opposite_output p (generate k) .encrypt

/-- Settles O26: the two ways a RUN completes, the state updates of each written as one. -/
theorem runCompletes : Obligations.RunCompletes := fun _ =>
  ⟨fun hv => ⟨runCommand_of_rkValid hv .encrypt, runCommand_of_rkValid hv .decrypt⟩,
    fun hv => ⟨runCommand_of_rkValid_eq_false hv .encrypt, runCommand_of_rkValid_eq_false hv .decrypt⟩⟩

end Sys2Proof.Machine
end

section
/-! SUPPORT. The top level's obligations (44_des_core.md): what a step answers, by the host's move and the status before
it (R221 to R224, R266), the DECRYPT command (R227, R234), pure results (R236), and the host that keeps its duty
(R233). -/

namespace Sys2Proof.Machine

/-! ### One step, by the host's move and the status (R221 to R224, R266) -/

section
variable {s : State}

theorem step_of_nextMove {m : HostMove} (hm : nextMove s = m) : step s = turn m s.afterMove :=
  congrArg (turn · s.afterMove) hm

theorem step_completes (hf : s.fault = none) (hb : s.busy = true) (hm : nextMove s = .idle) :
    step s = exec (decode s.cmdR) s.afterMove :=
  (step_of_nextMove hm).trans (coreTurn_busy (s := s.afterMove) hf hb)

theorem step_accepts {key block : Block} {cmd : CmdWord} (hf : s.fault = none) (hb : s.busy = false)
    (hm : nextMove s = .start key block cmd) : step s = .next (s.afterMove.capture key block cmd) :=
  (step_of_nextMove hm).trans (hostStart_accept (s := s.afterMove) hf hb key block cmd)

theorem step_violates {key block : Block} {cmd : CmdWord} (hf : s.fault = none) (hb : s.busy = true)
    (hm : nextMove s = .start key block cmd) :
    step s = .next (s.afterMove.raiseFault .startWhileBusy (.start key block cmd)) :=
  (step_of_nextMove hm).trans (hostStart_busy (s := s.afterMove) hf hb key block cmd)

theorem step_resets (hm : nextMove s = .reset) : step s = .next s.afterMove.resetStep := step_of_nextMove hm

/-- With FAULT set no step but a Reset is defined (R266; log 5). -/
theorem step_of_fault {f : Fault} (hf : s.fault = some f) (hm : nextMove s ≠ .reset) : step s = .fault f := by
  cases hmove : nextMove s with
  | idle => exact (step_of_nextMove hmove).trans (coreTurn_fault (s := s.afterMove) hf)
  | start key block cmd => exact (step_of_nextMove hmove).trans (hostStart_fault (s := s.afterMove) hf key block cmd)
  | reset => exact absurd hmove hm

/-- The CORE's turn, idle or completing a command, leaves BUSY = 0, no fault and the host's moves (R224, R277). -/
theorem coreTurn_leaves_idle (hf : s.fault = none) :
    ∃ t, coreTurn s = .next t ∧ t.fault = none ∧ t.busy = false ∧ t.inputs = s.inputs := by
  cases hb : s.busy with
  | true =>
    obtain ⟨t, ht⟩ := exec_next (decode s.cmdR) s
    obtain ⟨-, -, -, hfault, hinputs, -, hbusy, -⟩ := exec_frame ht
    exact ⟨t, (coreTurn_busy hf hb).trans ht, hfault.trans hf, hbusy, hinputs⟩
  | false => exact ⟨s, coreTurn_idle hf hb, hf, hb, rfl⟩

/-- A start on an idle core and the CORE's turn after it perform the command on the captured ports (R222, R224). -/
theorem run_start_idle {t : State} {key block : Block} {cmd : CmdWord} {rest : List HostMove} (hf : s.fault = none)
    (hb : s.busy = false) (hi : s.inputs = .start key block cmd :: .idle :: rest)
    (h : exec (decode cmd) (s.afterMove.capture key block cmd).afterMove = .next t) :
    Sys2Proof.core.run 2 s = .next t := by
  have hstart : nextMove s = .start key block cmd := congrArg (·.headD .idle) hi
  have hidle : nextMove (s.afterMove.capture key block cmd) = .idle := congrArg (·.tail.headD .idle) hi
  have hturn : step (s.afterMove.capture key block cmd) = .next t :=
    (step_completes (s := s.afterMove.capture key block cmd) hf rfl hidle).trans h
  rw [run_next (step_accepts hf hb hstart), run_next hturn]
  rfl

end

/-! ### The ports of a faulted core (R229) -/

theorem statusO_of_fault {s : State} {f : Fault} (hf : s.fault = some f) (n : Nat) :
    statusO n s = Config.readStatus n s := by
  simp [statusO, hf]

theorem shows_of_fault {s : State} {f : Fault} (hf : s.fault = some f) (valid : Bool) : shows s valid = false :=
  shows_eq_false_iff.mpr (.inl (by simp [hf]))

theorem portsOut_of_fault {s : State} {f : Fault} (hf : s.fault = some f) (n : Nat) (rkSel traceSel : BitVec 4) :
    portsOut n rkSel traceSel s =
      { status := Config.readStatus n s, block := Config.readBlock n s, rk := Config.readRoundKey n rkSel s,
        trace := Config.readTrace n traceSel s } := by
  rw [portsOut, statusO_of_fault hf, blockO_of_not_shows (shows_of_fault hf _), rkO_of_not_shows (shows_of_fault hf _),
    traceO_of_not_shows (shows_of_fault hf _)]

/-! ### The obedient host (R233, R300) -/

section
variable {busy : Bool} {moves : List HostMove}

theorem obeys_tail_of_idle (hm : moves.headD .idle = .idle) (h : obeys busy moves = true) :
    obeys false moves.tail = true := by
  cases moves with
  | nil => rfl
  | cons m rest =>
    cases hm
    exact h

theorem obeys_tail_of_start {key block : Block} {cmd : CmdWord} (hm : moves.headD .idle = .start key block cmd)
    (h : obeys busy moves = true) : busy = false ∧ obeys true moves.tail = true := by
  cases moves with
  | nil => cases hm
  | cons m rest =>
    cases hm
    simpa [obeys] using h

theorem obeys_tail_of_reset (hm : moves.headD .idle = .reset) (h : obeys busy moves = true) :
    obeys false moves.tail = true := by
  cases moves with
  | nil => cases hm
  | cons m rest =>
    cases hm
    exact h

end

/-- A host that keeps its duty still keeps it after the step, which raises no fault. -/
theorem step_of_obeys {s : State} (hf : s.fault = none) (h : obeys s.busy s.inputs = true) :
    ∃ t, step s = .next t ∧ t.fault = none ∧ obeys t.busy t.inputs = true := by
  cases hm : nextMove s with
  | idle =>
    obtain ⟨t, ht, hfault, hbusy, hinputs⟩ := coreTurn_leaves_idle (s := s.afterMove) hf
    refine ⟨t, (step_of_nextMove hm).trans ht, hfault, ?_⟩
    rw [hbusy, hinputs]
    exact obeys_tail_of_idle hm h
  | start key block cmd =>
    obtain ⟨hb, htail⟩ := obeys_tail_of_start hm h
    exact ⟨_, step_accepts hf hb hm, hf, htail⟩
  | reset => exact ⟨_, step_resets hm, hf, obeys_tail_of_reset hm h⟩

theorem run_of_obeys (k : Nat) : ∀ {s : State}, s.fault = none → obeys s.busy s.inputs = true →
    ∃ t, Sys2Proof.core.run k s = .next t ∧ t.fault = none := by
  induction k with
  | zero => exact fun {s} hf _ => ⟨s, rfl, hf⟩
  | succ k ih =>
    intro s hf h
    obtain ⟨t, ht, hft, h'⟩ := step_of_obeys hf h
    rw [run_next ht]
    exact ih hft h'

/-! ### What DECRYPT and RUN write (R227, R236) -/

/-- The two state updates of DECRYPT, written as one (R227). -/
theorem exec_decrypt (d : BitVec 1) (s : State) :
    exec (.decrypt d) s = .next { s with
      rk := generate s.keyR, rkValid := true,
      outR := desDecrypt s.keyR s.blkR, trace := (run s.blkR (generate s.keyR) .decrypt).trace,
      outValid := true, traceValid := true, err := 0b00, busy := false, done := true } := by
  rw [exec, execDecrypt, State.writeKeys, State.writeResult, State.complete, errNone, desDecrypt]

/-- With valid keys a RUN reads BLK_R and RK alone for what it writes to OUT_R and TRACE. -/
theorem runCommand_result_congr {dir : Dir} {s t s' t' : State} (hs : runCommand dir s = .next s')
    (ht : runCommand dir t = .next t') (hblk : s.blkR = t.blkR) (hvs : s.rkValid = true) (hvt : t.rkValid = true)
    (hrk : s.rk = t.rk) : s'.outR = t'.outR ∧ s'.trace = t'.trace := by
  rw [runCommand_of_rkValid hvs] at hs
  rw [runCommand_of_rkValid hvt] at ht
  cases hs
  cases ht
  simp [hblk, hrk]

/-! ### The obligations -/

/-- Settles O32. -/
theorem resultsArePure : Obligations.ResultsArePure := by
  intro i s t s' t' hs ht hkey hblk
  refine ⟨?keygen, ?decrypt, ?run⟩
  case keygen =>
    rintro ⟨d, rfl⟩
    cases hs
    cases ht
    simp [hkey]
  case decrypt =>
    rintro ⟨d, rfl⟩
    cases hs
    cases ht
    simp [hkey, hblk]
  case run =>
    rintro (rfl | rfl) hvs hvt hrk
    · exact runCommand_result_congr (dir := .encrypt) hs ht hblk hvs hvt hrk
    · exact runCommand_result_congr (dir := .decrypt) hs ht hblk hvs hvt hrk

/-- Settles O38: a step that answers a next state is a Reset, since every other one stops. -/
theorem faultIsFinal : Obligations.FaultIsFinal := by
  intro s f hf
  refine ⟨step_of_fault hf, fun t ht => ?_, portsOut_of_fault hf⟩
  have hm : nextMove s = .reset := by
    by_contra hm
    cases (step_of_fault hf hm).symm.trans ht
  cases (step_resets hm).symm.trans ht
  exact ⟨hm, hf⟩

/-- Settles O47, by induction on the number of steps. -/
theorem obedientHostNeverFaults : Obligations.ObedientHostNeverFaults := fun _ hf h k => run_of_obeys k hf h

/-- Settles O27: KEYGEN leaves valid keys (O25), so RUN.DEC after it writes its result with them (O26). -/
theorem decryptCompletes : Obligations.DecryptCompletes := by
  intro d s
  refine ⟨exec_decrypt d s, _, keygenCompletes d s, ?_⟩
  obtain ⟨hvalid, -⟩ := runCompletes { s with
    rk := generate s.keyR, rkValid := true, err := 0b00, busy := false, done := true }
  obtain ⟨-, hrunDec⟩ := hvalid rfl
  rw [exec_decrypt, desDecrypt]
  exact hrunDec

/-- Settles O53: DECRYPT on the captured ports leaves BUSY = 0 and all valid flags set, so every port shows its register
(O49). -/
theorem decryptTopLevel : Obligations.DecryptTopLevel := by
  intro s k c hf hb hi
  obtain ⟨t, ht⟩ := exec_next (.decrypt 0) (s.afterMove.capture k c 0b010).afterMove
  refine ⟨t, run_start_idle hf hb hi ht, fun n i => ?_⟩
  obtain ⟨-, -, -, hfault, -, -, hbusy, -⟩ := exec_frame ht
  have hft : t.fault = none := hfault.trans hf
  obtain ⟨hshown, -⟩ := dataPortsAreGated n t i
  obtain ⟨hblock, hrk, htrace⟩ := hshown hft hbusy
  rw [statusO_of_fault_none hft]
  cases (exec_decrypt _ _).symm.trans ht
  refine ⟨hblock rfl, hrk rfl, htrace rfl, ?_⟩
  simp only [statusWord]
  decide

/-- Settles O33. -/
theorem stepPerformsCommand : Obligations.StepPerformsCommand := fun _ => step_completes

/-- Settles O36: the captured state is a busy one without a fault, so its next step performs what CMD_R holds (O33). -/
theorem startIsAccepted : Obligations.StartIsAccepted := fun _ _ _ _ hf hb hm =>
  ⟨_, step_accepts hf hb hm, rfl, stepPerformsCommand _ hf rfl⟩

/-- Settles O37. -/
theorem startWhileBusyFaults : Obligations.StartWhileBusyFaults := fun _ _ _ _ hf hb hm =>
  ⟨_, step_violates hf hb hm, rfl, rfl⟩

end Sys2Proof.Machine
end

section
/-! SUPPORT. The exceptions' obligations (60_exceptions.md): what an erroring command writes (R262, R268), and what an
idle core holds (R277). -/

namespace Sys2Proof.Machine

/-- A command that reports an error is nothing but its completion with that code: one that writes data reports none. -/
theorem exec_error {i : Instr} {s t : State} (h : exec i s = .next t) (herr : t.err ≠ errNone) :
    t = s.complete t.err := by
  rcases exec_next_cases h with ⟨-, rfl⟩ | ⟨-, -, dir, rfl⟩ | ⟨-, rfl⟩ | ⟨-, -, rfl⟩ | ⟨-, rfl⟩
  case inr.inr.inr.inl | inr.inr.inr.inr => rfl
  all_goals exact absurd (State.complete_err _ _) herr

section
variable {s : State} (hf : s.fault = none) (hb : s.busy = false)
include hf hb

/-- The CORE's turn on an idle core only takes the host's move off the list (R277). -/
theorem step_idles (hm : nextMove s = .idle) : step s = .next s.afterMove :=
  (step_of_nextMove hm).trans (coreTurn_idle (s := s.afterMove) hf hb)

theorem step_idles_of_inputs_eq_nil (hi : s.inputs = []) : step s = .next s := by
  have hm : nextMove s = .idle := congrArg (·.headD .idle) hi
  have hafter : s.afterMove = s := congrArg (fun l => { s with inputs := l }) ((congrArg List.tail hi).trans hi.symm)
  rw [step_idles hf hb hm, hafter]

theorem run_idles_of_inputs_eq_nil (hi : s.inputs = []) (k : Nat) : Sys2Proof.core.run k s = .next s := by
  induction k with
  | zero => rfl
  | succ k ih => exact (run_next (step_idles_of_inputs_eq_nil hf hb hi) k).trans ih

end

/-! ### The obligations -/

/-- Settles O31. -/
theorem errorsArePrecise : Obligations.ErrorsArePrecise := fun _ _ _ => exec_error

/-- Settles O28: the reserved code's meaning is the completion with ILLEGAL_OP, written out. -/
theorem reservedCompletes : Obligations.ReservedCompletes := by
  intro d s
  rw [exec, execRsv, State.reportError, State.complete, errIllegalOp]

/-- Settles O35, by induction on the number of steps where the host makes no move. -/
theorem idleHolds : Obligations.IdleHolds := fun _ hf hb =>
  ⟨step_idles hf hb, run_idles_of_inputs_eq_nil hf hb⟩

end Sys2Proof.Machine
end

section
/-! SUPPORT. The obligations of reset, hazards and the clocked view (70_reset_and_hazards.md): what the ports show while
nothing is to be seen (R290, R303), stale results (R302), the edges of the clocked core, by the move their ports ask
for (R306), and the untimed run that a clocked one is (R307). -/

namespace Sys2Proof.Machine

-- With this option Lean elaborates the theorems of this section one at a time and not as parallel tasks. The whole text is
-- compiled in one process under a memory limit, in which every task that waits holds the stack of a thread.
set_option deprecated.oldSectionVars true

/-! ### The edges of the clocked core (R306) -/

theorem moveOf_of_rst {i : PortsIn} (h : i.rst = true) : moveOf i = .reset := if_pos h

theorem moveOf_of_start {i : PortsIn} (hr : i.rst = false) (hs : i.start = true) :
    moveOf i = .start i.key i.block i.cmd := (if_neg (Bool.eq_false_iff.mp hr)).trans (if_pos hs)

theorem moveOf_of_quiet {i : PortsIn} (h : i.rst = false ∧ i.start = false) : moveOf i = .idle := by
  obtain ⟨hr, hs⟩ := h
  exact (if_neg (Bool.eq_false_iff.mp hr)).trans (if_neg (Bool.eq_false_iff.mp hs))

theorem stillRunning_iff {c : Clocked} :
    stillRunning c = true ↔ (c.core.fault = none ∧ c.core.busy = true) ∧ 1 < c.left :=
  (Bool.and_eq_true_iff.trans (and_congr_left' Bool.and_eq_true_iff)).trans
    (and_congr (and_congr_left' Option.isNone_iff_eq_none) decide_eq_true_iff)

theorem withLeft_eq_next {o : Host.Outcome State Fault Refusal} {left : Nat} {d : Clocked}
    (h : withLeft o left = .next d) : o = .next d.core := by
  cases o <;> cases h
  rfl

theorem one_le_latencyOf {P : Timing} (hP : P.wf) (i : Instr) (key block : Block) (rk : Vector RoundKey 16) :
    1 ≤ latencyOf P i key block rk := by
  obtain ⟨hkeygen, hrun, hdecrypt, hreserved⟩ := hP key block rk
  cases i with
  | keygen _ => exact hkeygen
  | runEnc | runDec => exact hrun
  | decrypt _ => exact hdecrypt
  | rsv _ => exact hreserved

/-- An edge at which the ports ask for the move `m` (R306). -/
def edgeOf (P : Timing) (c : Clocked) (m : HostMove) : Host.Outcome Clocked Fault Refusal :=
  match m with
  | .reset => withLeft (turn .reset c.core) 0
  | .start key block cmd =>
    withLeft (turn (.start key block cmd) c.core) (latencyOf P (decode cmd) key block c.core.rk)
  | .idle =>
    if stillRunning c then .next { c with left := c.left - 1 } else withLeft (turn .idle c.core) 0

/-- Of the input ports an edge reads the move that they ask for. -/
theorem clockEdge_eq_edgeOf (P : Timing) (i : PortsIn) (c : Clocked) : clockEdge P i c = edgeOf P c (moveOf i) := rfl

section
variable {P : Timing} {i : PortsIn} {c : Clocked}

theorem clockEdge_of_reset (hm : moveOf i = .reset) :
    clockEdge P i c = .next { core := c.core.resetStep, left := 0 } := congrArg (edgeOf P c) hm

theorem clockEdge_of_start {key block : Block} {cmd : CmdWord} (hm : moveOf i = .start key block cmd) :
    clockEdge P i c =
      withLeft (turn (.start key block cmd) c.core) (latencyOf P (decode cmd) key block c.core.rk) :=
  congrArg (edgeOf P c) hm

theorem clockEdge_of_stillRunning (hm : moveOf i = .idle) (hr : stillRunning c = true) :
    clockEdge P i c = .next { c with left := c.left - 1 } := (congrArg (edgeOf P c) hm).trans (if_pos hr)

theorem clockEdge_of_not_stillRunning (hm : moveOf i = .idle) (hr : stillRunning c = false) :
    clockEdge P i c = withLeft (turn .idle c.core) 0 :=
  (congrArg (edgeOf P c) hm).trans (if_neg (Bool.eq_false_iff.mp hr))

/-- An edge is one turn of the core, or the core keeps its state. -/
theorem clockEdge_next_cases {d : Clocked} (h : clockEdge P i c = .next d) :
    d.core = c.core ∨ turn (moveOf i) c.core = .next d.core := by
  cases hm : moveOf i with
  | reset =>
    cases (clockEdge_of_reset hm).symm.trans h
    exact .inr rfl
  | start key block cmd => exact .inr (withLeft_eq_next ((clockEdge_of_start hm).symm.trans h))
  | idle =>
    cases hr : stillRunning c with
    | true =>
      cases (clockEdge_of_stillRunning hm hr).symm.trans h
      exact .inl rfl
    | false => exact .inr (withLeft_eq_next ((clockEdge_of_not_stillRunning hm hr).symm.trans h))

/-- The edges `rest` after an edge that answers `o`: they go on from its next state. -/
def edgesAfter (P : Timing) (rest : List PortsIn) (o : Host.Outcome Clocked Fault Refusal) :
    Host.Outcome Clocked Fault Refusal :=
  match o with
  | .next c => clockEdges P rest c
  | .fault f => .fault f
  | .refused r => .refused r

theorem clockEdges_cons (P : Timing) (i : PortsIn) (rest : List PortsIn) (c : Clocked) :
    clockEdges P (i :: rest) c = edgesAfter P rest (clockEdge P i c) := rfl

theorem clockEdges_cons_of_next {c' : Clocked} (h : clockEdge P i c = .next c') (rest : List PortsIn) :
    clockEdges P (i :: rest) c = clockEdges P rest c' := congrArg (edgesAfter P rest) h

theorem exists_of_edgesAfter_eq_next {rest : List PortsIn} {o : Host.Outcome Clocked Fault Refusal} {d : Clocked}
    (h : edgesAfter P rest o = .next d) : ∃ c', o = .next c' ∧ clockEdges P rest c' = .next d := by
  cases o with
  | next c' => exact ⟨c', rfl, h⟩
  | fault f => cases h
  | refused r => cases h

end

/-! ### A command in flight, edge by edge (R306 item 4) -/

section
variable {P : Timing} {c : Clocked}

theorem clockEdges_append {es : List PortsIn} {c' : Clocked} (h : clockEdges P es c = .next c') (fs : List PortsIn) :
    clockEdges P (es ++ fs) c = clockEdges P fs c' := by
  induction es generalizing c with
  | nil =>
    cases h
    rfl
  | cons i rest ih =>
    obtain ⟨d, hedge, hrest⟩ := exists_of_edgesAfter_eq_next h
    exact (clockEdges_cons_of_next hedge _).trans (ih hrest)

/-- On edges without a request the command in flight stays as it was captured while its last edge is to come. -/
theorem clockEdges_waits {quiet : List PortsIn} (hquiet : ∀ q ∈ quiet, moveOf q = .idle) (hf : c.core.fault = none)
    (hb : c.core.busy = true) (hlt : quiet.length < c.left) :
    clockEdges P quiet c = .next { c with left := c.left - quiet.length } := by
  induction quiet generalizing c with
  | nil => rfl
  | cons q rest ih =>
    obtain ⟨hidle, hrest⟩ := List.forall_mem_cons.mp hquiet
    rw [List.length_cons] at hlt
    have hedge : clockEdge P q c = .next { c with left := c.left - 1 } :=
      clockEdge_of_stillRunning hidle (stillRunning_iff.mpr ⟨⟨hf, hb⟩, by omega⟩)
    rw [clockEdges_cons_of_next hedge, ih (c := { c with left := c.left - 1 }) hrest hf hb (Nat.lt_sub_of_add_lt hlt),
      List.length_cons, Nat.sub_sub, Nat.add_comm]

/-- The last of them performs the captured command. -/
theorem clockEdges_completes {init : List PortsIn} {last : PortsIn} {t : State}
    (hinit : ∀ q ∈ init, moveOf q = .idle) (hlast : moveOf last = .idle) (hf : c.core.fault = none)
    (hb : c.core.busy = true) (hlen : init.length + 1 = c.left) (he : exec (decode c.core.cmdR) c.core = .next t) :
    clockEdges P (init ++ [last]) c = .next { core := t, left := 0 } := by
  have hdone : stillRunning { c with left := c.left - init.length } = false := by
    rw [← Bool.not_eq_true, stillRunning_iff]
    rintro ⟨-, (hlt : 1 < c.left - init.length)⟩
    omega
  rw [clockEdges_append (clockEdges_waits hinit hf hb (by omega))]
  refine clockEdges_cons_of_next ?_ []
  rw [clockEdge_of_not_stillRunning hlast hdone, turn, coreTurn_busy hf hb, he]
  rfl

end

/-! ### The untimed run of a clocked one (R307) -/

/-- The untimed core stands at `u` where the clocked one stands at `s`, with `moves` to make before the host's own. With
FAULT set, where the registers are unspecified (R223, R264), only the fault, the draws and the moves are related. -/
def Follows (moves : List HostMove) (u s : State) : Prop :=
  u.fault = s.fault ∧ u.draws = s.draws ∧ u.inputs = moves ++ s.inputs ∧
  (s.fault = none → u = { s with inputs := moves ++ s.inputs })

theorem follows_self (moves : List HostMove) (s : State) : Follows moves { s with inputs := moves ++ s.inputs } s :=
  ⟨rfl, rfl, rfl, fun _ => rfl⟩

/-- A turn takes nothing from the host's moves. -/
theorem turn_keeps_inputs {m : HostMove} {s t : State} (h : turn m s = .next t) : t.inputs = s.inputs := by
  rcases turn_cases h with ⟨-, -, -, he⟩ | ⟨-, -, -, rfl⟩ | ⟨-, -, key, block, cmd, -, rfl⟩ | ⟨-, -, -, rfl⟩ |
    ⟨-, rfl⟩
  case inl =>
    obtain ⟨-, -, -, -, hinputs, -⟩ := exec_frame he
    exact hinputs
  all_goals rfl

/-- The untimed core's next step takes the turn that the clocked core took; two violations draw their own values. -/
theorem Follows.step {m : HostMove} {moves : List HostMove} {u s t : State} (h : Follows (m :: moves) u s)
    (ht : turn m s = .next t) : ∃ v, step u = .next v ∧ Follows moves v t := by
  obtain ⟨hfault, hdraws, hinputs, heq⟩ := h
  have hm : nextMove u = m := congrArg (·.headD .idle) hinputs
  have htail : u.afterMove.inputs = moves ++ s.inputs := congrArg List.tail hinputs
  have faultless (hft : t.fault = none) : ∃ v, Machine.step u = .next v ∧ Follows moves v t := by
    have hfs : s.fault = none := not_not.mp fun hfs => turn_keeps_fault ht hfs hft
    rw [heq hfs]
    refine ⟨_, step_cons ht hft _, ?_⟩
    rw [← turn_keeps_inputs ht]
    exact follows_self moves t
  rcases turn_cases ht with ⟨hf, -, -, he⟩ | ⟨hf, -, -, rfl⟩ | ⟨hf, -, key, block, cmd, -, rfl⟩ |
    ⟨hf, hb, ⟨key, block, cmd, rfl⟩, rfl⟩ | ⟨rfl, rfl⟩
  · obtain ⟨-, -, -, hkept, -⟩ := exec_frame he
    exact faultless (hkept.trans hf)
  · exact faultless hf
  · exact faultless hf
  · have hbu : u.busy = true := (congrArg State.busy (heq hf)).trans hb
    exact ⟨_, step_violates (hfault.trans hf) hbu hm, rfl, congrArg (· + 1) hdraws, htail, nofun⟩
  · exact ⟨_, step_resets hm, hfault, hdraws, htail, fun hf => congrArg (·.afterMove.resetStep) (heq hf)⟩

/-- What the clocked core gets through, the untimed core does in one step an edge or none. -/
theorem clockEdges_follows {P : Timing} (edges : List PortsIn) : ∀ {c d : Clocked}, clockEdges P edges c = .next d →
    ∃ moves : List HostMove, moves.length ≤ edges.length ∧ ∀ {u : State}, Follows moves u c.core →
      ∃ v, Sys2Proof.core.run moves.length u = .next v ∧ Follows [] v d.core := by
  induction edges with
  | nil =>
    intro c d h
    cases h
    exact ⟨[], le_rfl, fun hu => ⟨_, rfl, hu⟩⟩
  | cons i rest ih =>
    intro c d h
    obtain ⟨c', hedge, hrest⟩ := exists_of_edgesAfter_eq_next h
    obtain ⟨moves, hle, hrun⟩ := ih hrest
    rcases clockEdge_next_cases hedge with hkeeps | hturn
    · exact ⟨moves, Nat.le_succ_of_le hle, hkeeps ▸ hrun⟩
    · refine ⟨moveOf i :: moves, Nat.succ_le_succ hle, fun hu => ?_⟩
      obtain ⟨u', hstep, hu'⟩ := hu.step hturn
      obtain ⟨v, hv, hvd⟩ := hrun hu'
      exact ⟨v, (run_next hstep _).trans hv, hvd⟩

theorem Same.refl (s : State) : Same s s :=
  ⟨rfl, rfl, rfl, fun _ => ⟨rfl, rfl, rfl, rfl, rfl, rfl, fun _ => ⟨rfl, rfl, rfl⟩, fun _ => rfl, fun _ => rfl,
    fun _ => rfl⟩⟩

/-- With no move of its own left to make, the untimed core is in the clocked one's state, or both have a fault. -/
theorem Follows.eq_and_same {u s : State} (h : Follows [] u s) : (s.fault = none → u = s) ∧ Same u s := by
  obtain ⟨hfault, hdraws, hinputs, heq⟩ := h
  refine ⟨heq, hfault, hinputs, hdraws, fun hf => ?_⟩
  obtain rfl : u = s := heq (hfault.symm.trans hf)
  obtain ⟨-, -, -, hregs⟩ := Same.refl u
  exact hregs hf

/-! ### Ports with nothing to show (R44, R229, R303) -/

/-- While no register is shown, only the status word is defined. -/
theorem portsOut_of_not_shows {s : State} (hf : s.fault = none) (hblock : shows s s.outValid = false)
    (hrk : shows s s.rkValid = false) (htrace : shows s s.traceValid = false) (n : Nat) (rkSel traceSel : BitVec 4) :
    portsOut n rkSel traceSel s =
      { status := statusWord s, block := Config.readBlock n s, rk := Config.readRoundKey n rkSel s,
        trace := Config.readTrace n traceSel s } := by
  rw [portsOut, statusO_of_fault_none hf, blockO_of_not_shows hblock, rkO_of_not_shows hrk, traceO_of_not_shows htrace]

theorem shows_of_busy {s : State} (hb : s.busy = true) (valid : Bool) : shows s valid = false :=
  shows_eq_false_iff.mpr (.inr (.inl hb))

theorem shows_of_not_valid (s : State) : shows s false = false := shows_eq_false_iff.mpr (.inr (.inr rfl))

theorem statusWord_capture (s : State) (key block : Block) (cmd : CmdWord) :
    statusWord (s.capture key block cmd) =
      0#1 ++ BitVec.ofBool s.traceValid ++ BitVec.ofBool s.outValid ++ BitVec.ofBool s.rkValid ++ 0b0001#4 := by
  simp only [statusWord, State.capture_traceValid, State.capture_outValid, State.capture_rkValid, State.capture_err,
    State.capture_done, State.capture_busy]
  generalize s.traceValid = traceValid, s.outValid = outValid, s.rkValid = rkValid
  revert traceValid outValid rkValid
  decide

/-! ### What a later RUN finds in RK (R302) -/

theorem exec_decrypt_keys {d : BitVec 1} {s t : State} (h : exec (.decrypt d) s = .next t) :
    t.rkValid = true ∧ t.rk = generate s.keyR := by
  cases (exec_decrypt d s).symm.trans h
  exact ⟨rfl, rfl⟩

/-! ### Reset (R290) -/

theorem statusWord_resetStep (s : State) : statusWord s.resetStep = 0x00 := by
  simp only [statusWord, State.resetStep_traceValid, State.resetStep_outValid, State.resetStep_rkValid,
    State.resetStep_err, State.resetStep_done, State.resetStep_busy]
  decide

/-- A Reset clears every field that two states without a fault can be told apart by (R44). -/
theorem same_resetStep {s t : State} (hfault : s.fault = t.fault) (hinputs : s.inputs = t.inputs)
    (hdraws : s.draws = t.draws) : Same s.resetStep t.resetStep :=
  ⟨hfault, hinputs, hdraws, fun _ => ⟨rfl, rfl, rfl, rfl, rfl, rfl, nofun, nofun, nofun, nofun⟩⟩

/-! ### The obligations -/

/-- Settles O58, by induction on the edges: each is followed by one untimed step or none. -/
theorem clockRefinesSteps : Obligations.ClockRefinesSteps := by
  intro P edges c d h
  obtain ⟨moves, hle, hrun⟩ := clockEdges_follows edges h
  obtain ⟨u, hu, hud⟩ := hrun (follows_self moves c.core)
  exact ⟨moves, u, hle, hu, hud.eq_and_same⟩

/-- Settles O52: BUSY = 1 hides every register, and the capture sets the other status fields. -/
theorem portsWhileBusy : Obligations.PortsWhileBusy := by
  intro s key block cmd hf hb hm
  refine ⟨_, step_accepts hf hb hm, fun n rkSel traceSel => ?_⟩
  rw [portsOut_of_not_shows (s := s.afterMove.capture key block cmd) hf (shows_of_busy rfl _) (shows_of_busy rfl _)
    (shows_of_busy rfl _), statusWord_capture]
  rfl

/-- Settles O54: KEYGEN writes no result, so the ports show the old one (O49); DECRYPT leaves valid keys, with which a
RUN writes its result (O26). -/
theorem staleResults : Obligations.StaleResults := by
  refine ⟨?keygen, ?decrypt⟩
  case keygen =>
    intro s k b hf hb hout htrace hi
    obtain ⟨t, ht⟩ := exec_next (.keygen 0) (s.afterMove.capture k b 0b000).afterMove
    refine ⟨t, run_start_idle hf hb hi ht, ?_⟩
    have hgated (n : Nat) := dataPortsAreGated n t
    cases (keygenCompletes _ _).symm.trans ht
    refine ⟨hout, fun n i => ?_⟩
    obtain ⟨hshown, -⟩ := hgated n i
    obtain ⟨hblock, hrk, htraceO⟩ := hshown hf rfl
    exact ⟨hblock hout, htraceO htrace, hrk rfl⟩
  case decrypt =>
    intro s t d h key block
    obtain ⟨hv, hrk⟩ := exec_decrypt_keys h
    have hEnc := runCommand_of_rkValid (s := t.capture key block 0b001) hv .encrypt
    have hDec := runCommand_of_rkValid (s := t.capture key block 0b101) hv .decrypt
    rw [← hrk]
    exact ⟨⟨_, hEnc, rfl⟩, _, hDec, rfl⟩

/-- Settles O57: an accepted start leaves its latency to count down, which edges without a request do. -/
theorem clockProtocol : Obligations.ClockProtocol := by
  intro P hP i c
  refine ⟨fun hr => clockEdge_of_reset (moveOf_of_rst hr), fun hr hs hf hb => ?violation,
    fun hr hs hf hb s lat hcapture hlat quiet hquiet => ?accepted⟩
  case violation =>
    rw [clockEdge_of_start (moveOf_of_start hr hs), turn, hostStart_busy hf hb]
    exact ⟨_, rfl, rfl⟩
  case accepted =>
    have haccept : clockEdge P i c = .next { core := s, left := lat } := by
      rw [clockEdge_of_start (moveOf_of_start hr hs), turn, hostStart_accept hf hb, hcapture, hlat]
      rfl
    have hidle : ∀ q ∈ quiet, moveOf q = .idle := fun q hq => moveOf_of_quiet (hquiet q hq)
    have hfs : s.fault = none := by rw [hcapture, State.capture_fault, hf]
    have hbs : s.busy = true := by rw [hcapture, State.capture_busy]
    have hcmd : s.cmdR = i.cmd := by rw [hcapture, State.capture_cmdR]
    rw [clockEdges_cons_of_next haccept]
    refine ⟨clockEdges_waits (c := { core := s, left := lat }) hidle hfs hbs, fun hlen => ?_⟩
    obtain ⟨t, ht⟩ := exec_next (decode i.cmd) s
    refine ⟨t, ht, ?_⟩
    rcases List.eq_nil_or_concat' quiet with rfl | ⟨init, last, rfl⟩
    · exact absurd (hlen.trans hlat) (Nat.ne_of_lt (one_le_latencyOf hP _ _ _ _))
    · obtain ⟨hinit, hlast⟩ := List.forall_mem_append.mp hidle
      rw [List.length_append, List.length_singleton] at hlen
      exact clockEdges_completes hinit (hlast last (List.mem_singleton_self last)) hfs hbs hlen (hcmd ▸ ht)

/-- Settles O39: a Reset leaves a state with all flags clear. -/
theorem resetAbandonsCommand : Obligations.ResetAbandonsCommand := by
  intro s hm
  refine ⟨_, step_resets hm, rfl, rfl, rfl, rfl, rfl, rfl, rfl, rfl, rfl, fun hf n rkSel traceSel => ?_⟩
  rw [portsOut_of_not_shows (s := s.afterMove.resetStep) hf (shows_of_not_valid _) (shows_of_not_valid _)
    (shows_of_not_valid _), statusWord_resetStep]

/-- Settles O46; the reset state is one that a Reset leaves as it is, whatever its registers hold. -/
theorem resetForgets : Obligations.ResetForgets :=
  ⟨fun _ _ => same_resetStep, fun key block out cmd keys records =>
    same_resetStep (s := State.reset) (t := { State.reset with
      keyR := key, blkR := block, cmdR := cmd, rk := keys, outR := out, trace := records }) rfl rfl rfl⟩

end Sys2Proof.Machine
end
